-- ==== Sys2Proof/Syntax.lean ====
section
/-! DEFINITION. The commands of the core, one constructor per row of spec/opcode_table.json (30_encoding R71).
No command has an operand field (R72). -/

namespace Sys2Proof

/-- The seven commands (30_encoding R71). -/
inductive Instr where
  /-- `DERIVE`, word 0x01 (40_kdu R91). -/
  | cmdDerive
  /-- `SEAL`, word 0x02 (43_aead R141). -/
  | cmdSeal
  /-- `OPEN`, word 0x03 (43_aead R143). -/
  | cmdOpen
  /-- `ENCODE`, word 0x04 (44_envelope R161). -/
  | cmdEncode
  /-- `DECODE`, word 0x05 (44_envelope R163). -/
  | cmdDecode
  /-- `ENCRYPT`, word 0x06 (45_public R171). -/
  | cmdEncrypt
  /-- `DECRYPT`, word 0x07 (45_public R173). -/
  | cmdDecrypt
  deriving DecidableEq, Repr

end Sys2Proof
end

