-- ==== Sys2Proof/Word.lean ====
section
/-! DEFINITION. The byte, the 32-bit word and the fixed-length byte sequence (00_scope R11, R12). -/

namespace Sys2Proof

/-- A byte of 8 bits (00_scope R11). -/
abbrev Byte := BitVec 8

/-- A 32-bit word of the cipher (00_scope R14). -/
abbrev Word := BitVec 32

/-- `bytes[n]`: a sequence of exactly `n` bytes, byte 0 first (00_scope R12). -/
abbrev Octets (n : Nat) := Vector Byte n

/-- `zeros(n)` (00_scope R12). -/
def zeros (n : Nat) : Octets n := Vector.replicate n 0

end Sys2Proof
end

