-- ==== Sys2Proof/WellFormed.lean ====
section
/-! DEFINITION. Well-formedness of a command word (30_encoding R70, R73). A term of `Instr` has no field, so every
term is well formed; what can be ill formed is the word, in its `zero` field or in its `op` field. -/

namespace Sys2Proof

/-- The `zero` field, bits 7:3 of the command word (30_encoding R70). -/
def wordZeroField (w : BitVec 8) : BitVec 5 := w.extractLsb' 3 5

/-- The `op` field, bits 2:0 of the command word (30_encoding R70). -/
def wordOpField (w : BitVec 8) : BitVec 3 := w.extractLsb' 0 3

/-- The word is one of the seven commands: its `zero` field is 0 and its `op` field is not (30_encoding R73). -/
def wordWellFormed (w : BitVec 8) : Bool := wordZeroField w == 0 && wordOpField w != 0

/-- Every term of `Instr` is well formed: there is no operand field to check (30_encoding R72). -/
def Instr.wellFormed : Instr → Bool
  | .cmdDerive => true
  | .cmdSeal => true
  | .cmdOpen => true
  | .cmdEncode => true
  | .cmdDecode => true
  | .cmdEncrypt => true
  | .cmdDecrypt => true

end Sys2Proof
end

