-- ==== Sys2Proof/Decode.lean ====
section
/-! DEFINITION. The decoder of the command word, total on every byte (30_encoding R73, R88), and the encoder, both
from the table of R71. -/

namespace Sys2Proof

/-- Why bytes are not a command. -/
inductive DecodeError where
  /-- There is no byte to decode. -/
  | noWord
  /-- `zero != 00000`: a reserved word (30_encoding R73). -/
  | reservedZeroField
  /-- `op = 000`: the reserved word 0x00 (30_encoding R73). -/
  | reservedOpcode
  deriving DecidableEq, Repr

/-- One row of the table of 30_encoding R71: a word matches when `(word & mask) = match`. -/
structure OpcodeRow where
  mask : BitVec 8
  pattern : BitVec 8
  instr : Instr
  deriving DecidableEq, Repr

/-- The table of 30_encoding R71; every mask is 0xFF. -/
def opcodeTable : List OpcodeRow :=
  [ ⟨0xFF, 0x01, .cmdDerive⟩, ⟨0xFF, 0x02, .cmdSeal⟩, ⟨0xFF, 0x03, .cmdOpen⟩, ⟨0xFF, 0x04, .cmdEncode⟩,
    ⟨0xFF, 0x05, .cmdDecode⟩, ⟨0xFF, 0x06, .cmdEncrypt⟩, ⟨0xFF, 0x07, .cmdDecrypt⟩ ]

/-- The command a word stands for, or the reason it is reserved (30_encoding R71, R73). -/
def decodeWord (w : BitVec 8) : Except DecodeError Instr :=
  match opcodeTable.find? (fun r => w &&& r.mask == r.pattern) with
  | some r => .ok r.instr
  | none => if wordZeroField w == 0 then .error .reservedOpcode else .error .reservedZeroField

/-- Decoding of a byte stream: a command is always one byte (30_encoding R75); the rest is handed back. -/
def decode : List Byte → Except DecodeError (Instr × List Byte)
  | [] => .error .noWord
  | b :: rest =>
    match decodeWord b with
    | .ok i => .ok (i, rest)
    | .error e => .error e

/-- The word of a command (30_encoding R71). -/
def encodeWord : Instr → BitVec 8
  | .cmdDerive => 0x01
  | .cmdSeal => 0x02
  | .cmdOpen => 0x03
  | .cmdEncode => 0x04
  | .cmdDecode => 0x05
  | .cmdEncrypt => 0x06
  | .cmdDecrypt => 0x07

/-- The bytes of a command: its one word. -/
def encode (i : Instr) : List Byte := [encodeWord i]

/-- The bytes of the number `w` of `nbits` bits, lowest first, as they are written to `CMD`. -/
def tableBytes : Nat → Nat → List Byte
  | 0, _ => []
  | n + 1, w => BitVec.ofNat 8 w :: tableBytes n (w / 256)

/-- The command that an instruction of `nbits` bits, numbered as spec/opcode_table.json numbers them, decodes to;
none where the decoder refuses it or bytes are left over. -/
def decodeTableWord (nbits w : Nat) : Option Instr :=
  match decode (tableBytes (nbits / 8) w) with
  | .ok (i, []) => some i
  | .ok (_, _ :: _) => none
  | .error _ => none

end Sys2Proof
end

