-- ==== Sys2Proof/Config.lean ====
section
/-! DEFINITION. What the implementation fixes and the spec leaves open (00_scope R9, 10_state R44): the key-derivation
function and the buffer capacities. None has a body, so nothing proved can rest on a value of one. -/

namespace Sys2Proof

/-- The type of `KDF`: a password and a 16-byte salt to a 32-byte key, or `none` for `fail` (40_kdu R92). -/
abbrev Kdf := List Byte → Octets 16 → Option (Octets 32)

/-- `KDF`, the open key-derivation function (40_kdu R92, DESIGN CHOICE of the spec D7, log entry 9).
It is one fixed function of its two arguments; nothing else is known of it. -/
opaque Config.kdf : Kdf

/-- `PW_MAX`, the capacity of the password buffer (20_memory R52, log entry 10). -/
opaque Config.pwMax : Nat

/-- `AAD_MAX` under its bound `AAD_MAX < 2^64` (20_memory R52). -/
opaque Config.aadCapacity : Fin (2 ^ 64)

/-- `TEXT_MAX` under its bound `TEXT_MAX <= (2^32 - 1) * 64` (20_memory R52). -/
opaque Config.textCapacity : Fin ((2 ^ 32 - 1) * 64 + 1)

/-- `AAD_MAX`. -/
def Config.aadMax : Nat := Config.aadCapacity.val

/-- `TEXT_MAX`. -/
def Config.textMax : Nat := Config.textCapacity.val

/-- `ENV_MAX = TEXT_MAX + 56`, which is not free (00_scope R9). -/
def Config.envMax : Nat := Config.textMax + 56

end Sys2Proof
end

