-- ==== Sys2Proof/Machine/State.lean ====
section
/-! DEFINITION. The state of the core as plain data (10_state), the inputs it waits for, its reset value (R45). -/

namespace Sys2Proof.Machine

/-- The five result codes of `STATUS.ERR` (10_state R29); codes 5 to 7 are never produced, so no other exists. -/
inductive ErrCode where
  /-- 0 `OK`. -/
  | ok
  /-- 1 `MalformedEnvelopeError` (60_exceptions R192). -/
  | malformedEnvelope
  /-- 2 `AuthenticationError` (60_exceptions R193). -/
  | authentication
  /-- 3 `KeyDerivationError` (60_exceptions R194). -/
  | keyDerivation
  /-- 4 `CommandError` (60_exceptions R195). -/
  | command
  deriving DecidableEq, Repr

/-- The fields of `STATUS` (10_state R28). Software never writes the register, so it is held by its fields;
`Status.word` gives the 8-bit value, whose bit 7 reads 0 (log entry 14). -/
structure Status where
  /-- `ERR`, the code of the last completed command. -/
  err : ErrCode
  /-- `KEY_VALID`. -/
  keyValid : Bool
  /-- `DONE`. -/
  done : Bool
  /-- `BUSY`; never set between steps (10_state R31). -/
  busy : Bool
  /-- `FATAL`, sticky until reset (10_state R32). -/
  fatal : Bool
  deriving DecidableEq, Repr

/-- The five buffers, which are the five address spaces (20_memory R50). -/
inductive Buf where
  | pw
  | aad
  | pt
  | ct
  | env
  deriving DecidableEq, Repr

/-- The memory of the core: one byte sequence per address space, byte at offset `a` in place `a`, length the length
register (10_state R34, R35; 20_memory R66; log entry 1). -/
structure Memory where
  /-- `PW`, the password. -/
  pw : List Byte
  /-- `AAD`. -/
  aad : List Byte
  /-- `PT`, the plaintext. -/
  pt : List Byte
  /-- `CT`, the ciphertext. -/
  ct : List Byte
  /-- `ENV`, the envelope. -/
  env : List Byte
  deriving DecidableEq, Repr

/-- The working registers of the datapath (10_state R36 to R39), zero between commands (R40; log entry 8). `K1` is one
of them by 42_poly1305 R129, although R36 to R40 and R45 do not list it (DEDUCED, log entry 19). -/
structure Work where
  /-- `ST[0..15]`. -/
  st : Vector Word 16
  /-- `X[0..15]`. -/
  x : Vector Word 16
  /-- `CTR`. -/
  ctr : Word
  /-- `SUBKEY`. -/
  subkey : Octets 32
  /-- `KS`. -/
  ks : Octets 64
  /-- `K1`, the one-time key (42_poly1305 R129; DEDUCED, log entry 19). -/
  k1 : Octets 32
  /-- `R`. -/
  r : BitVec 128
  /-- `S`. -/
  s : BitVec 128
  /-- `ACC`. -/
  acc : Nat
  /-- `CTAG`. -/
  ctag : Octets 16
  /-- `DIFF`. -/
  diff : Byte
  /-- `KDU_MEM`, by its nonzero cells: the empty list is the wiped memory. -/
  kduMem : List Host.Cell
  deriving DecidableEq, Repr

/-- What the host can name in a read (10_state R43). -/
inductive HostItem where
  | key
  | salt
  | nonce
  | tag
  /-- The content of a buffer. -/
  | buf (b : Buf)
  /-- The length register of a buffer. -/
  | len (b : Buf)
  | cmd
  | status
  deriving DecidableEq, Repr

/-- What a host read answers (10_state R43). -/
inductive HostValue where
  /-- The bytes of an operand register or of a buffer. -/
  | bytes (v : List Byte)
  /-- A 64-bit length register (10_state R34). -/
  | length (n : BitVec 64)
  /-- An 8-bit register, `CMD` or `STATUS`. -/
  | byte (w : BitVec 8)
  deriving DecidableEq, Repr

/-- One thing that reaches the core from outside between two commands (30_encoding R86, 70_reset_and_hazards R236). -/
inductive Input where
  /-- `LOAD KEY`: a host write of all 32 bytes. -/
  | loadKey (v : Octets 32)
  /-- `LOAD SALT`. -/
  | loadSalt (v : Octets 16)
  /-- `LOAD NONCE`. -/
  | loadNonce (v : Octets 24)
  /-- `LOAD TAG`. -/
  | loadTag (v : Octets 16)
  /-- `LOAD <buf>`. -/
  | loadBuf (b : Buf) (v : List Byte)
  /-- A host write of `CMD`. -/
  | writeCmd (w : BitVec 8)
  /-- A host write of the read-only `STATUS`. -/
  | writeStatus (w : BitVec 8)
  /-- A host write of a read-only length register. -/
  | writeLen (b : Buf) (n : BitVec 64)
  /-- `READ`. -/
  | read (item : HostItem)
  /-- `RNG`: the random source delivers bytes (10_state R33). -/
  | random (v : List Byte)
  /-- The platform asserts reset (70_reset_and_hazards R220). -/
  | reset
  deriving DecidableEq, Repr

/-- The whole state: the core's own, then what stands around it. -/
structure State where
  /-- `KEY` (10_state R21). -/
  key : Octets 32
  /-- `SALT` (10_state R22). -/
  salt : Octets 16
  /-- `NONCE` (10_state R23). -/
  nonce : Octets 24
  /-- `TAG` (10_state R24). -/
  tag : Octets 16
  /-- `STATUS` (10_state R28). -/
  status : Status
  /-- The five buffers (10_state R35). -/
  mem : Memory
  /-- The working registers (10_state R36 to R39; `K1`: log entry 19). -/
  work : Work
  /-- The model's own: the bytes the random source will answer next (10_state R33; free, log entry 3). -/
  rng : List Byte
  /-- The model's own: what host, source and platform do next, oldest first (20_memory R61; log entry 5). -/
  inputs : List Input
  /-- The model's own: what the last host read answered (10_state R43; log entry 7). -/
  readData : Option HostValue
  deriving DecidableEq, Repr

/-- `REGMAP`, the bus addresses of the registers and buffers: an open parameter that no rule reads (20_memory R59;
log entry 11). -/
opaque regMap : HostItem → Nat

/-- The core has no fault: every command word and every state has a defined outcome (60_exceptions R201), so nothing
raises one. -/
inductive Fault where
  deriving DecidableEq, Repr

/-- Why an instruction has no meaning in the model. -/
inductive Refusal where
  /-- An arm of `exec` that rejects its instruction by name; safe. No arm does: every command has its meaning. -/
  | notModelled (mnemonic : String)
  deriving DecidableEq, Repr

/-- All working registers zero (10_state R40; `K1`: 42_poly1305 R129, log entry 19). -/
def Work.zero : Work where
  st := Vector.replicate 16 0
  x := Vector.replicate 16 0
  ctr := 0
  subkey := zeros 32
  ks := zeros 64
  k1 := zeros 32
  r := 0
  s := 0
  acc := 0
  ctag := zeros 16
  diff := 0
  kduMem := []

/-- All five buffers empty (10_state R45). -/
def Memory.empty : Memory := ⟨[], [], [], [], []⟩

/-- `STATUS = 0x00` (10_state R45). -/
def Status.reset : Status := ⟨.ok, false, false, false, false⟩

/-- The machine right after reset (10_state R45). The last three fields are not the core's: no random byte has been
delivered, no input is pending and nothing has been read (DESIGN CHOICE, log entries 3, 5 and 7). -/
def State.reset : State where
  key := zeros 32
  salt := zeros 16
  nonce := zeros 24
  tag := zeros 16
  status := Status.reset
  mem := Memory.empty
  work := Work.zero
  rng := []
  inputs := []
  readData := none

end Sys2Proof.Machine
end

