-- ==== Sys2Proof/Machine/Flags.lean ====
section
/-! DEFINITION. The status register: its 8-bit value (10_state R28) and every update a command makes to it. -/

namespace Sys2Proof.Machine

/-- The number of a result code (10_state R29). -/
def ErrCode.code : ErrCode → BitVec 3
  | .ok => 0
  | .malformedEnvelope => 1
  | .authentication => 2
  | .keyDerivation => 3
  | .command => 4

/-- The 8 bits of `STATUS`, from bit 7 down: reserved 0, `FATAL`, `BUSY`, `DONE`, `KEY_VALID`, `ERR` (10_state R28). -/
def Status.word (st : Status) : BitVec 8 :=
  0#1 ++ BitVec.ofBool st.fatal ++ BitVec.ofBool st.busy ++ BitVec.ofBool st.done ++ BitVec.ofBool st.keyValid
    ++ st.err.code

/-- Acceptance of a command: `BUSY <- 1; DONE <- 0` (10_state R31). -/
def Status.accept (st : Status) : Status := { st with busy := true, done := false }

/-- Completion with code `e`: `BUSY <- 0; DONE <- 1; ERR <- e`, and `FATAL <- 1` for `KeyDerivationError`
(10_state R31, R32; 60_exceptions R197 (d)). -/
def Status.complete (st : Status) (e : ErrCode) : Status :=
  { st with err := e, done := true, busy := false, fatal := st.fatal || e == .keyDerivation }

/-- Acceptance and completion as the one transition they are in the atomic model (10_state R31). -/
def Status.run (st : Status) (e : ErrCode) : Status := st.accept.complete e

/-- `KEY_VALID <- v` (10_state R30). -/
def Status.setKeyValid (st : Status) (v : Bool) : Status := { st with keyValid := v }

end Sys2Proof.Machine
end

