-- ==== Sys2Proof/Machine/Bytes.lean ====
section
/-! DEFINITION. Byte sequences and their numbers: slices, little-endian conversions, exclusive or (00_scope R12 to R14). -/

namespace Sys2Proof.Machine

/-- The first `n` bytes of `l` as a `bytes[n]`. The rules apply it only where `l` has `n` bytes; beyond the end of a
shorter `l` it has zero bytes (log entry 12). -/
def octets (n : Nat) (l : List Byte) : Octets n := Vector.ofFn fun i => l.getD i 0

/-- `le_num(x)`: the little-endian number of a byte sequence (00_scope R13). -/
def leNum : List Byte → Nat
  | [] => 0
  | b :: bs => b.toNat + 256 * leNum bs

/-- `to_le(n, k)`: the `k` bytes whose little-endian number is `n` (00_scope R13); of a larger `n`, its low `k` bytes. -/
def toLe (n : Nat) : Nat → List Byte
  | 0 => []
  | k + 1 => BitVec.ofNat 8 n :: toLe (n / 256) k

/-- `le32(x)` (00_scope R13). -/
def le32 (x : List Byte) : Word := BitVec.ofNat 32 (leNum x)

/-- `to_le32(w)` (00_scope R13). -/
def toLe32 (w : Word) : List Byte := toLe w.toNat 4

/-- `le64(n)` (00_scope R13). -/
def le64 (n : Nat) : List Byte := toLe n 8

/-- `words(x)`: the little-endian words of a sequence whose length is a multiple of 4 (00_scope R13). -/
def words : List Byte → List Word
  | a :: b :: c :: d :: rest => le32 [a, b, c, d] :: words rest
  | _ => []

/-- `unwords`, the inverse of `words` (00_scope R13). -/
def unwords (ws : List Word) : List Byte := ws.flatMap toLe32

/-- Bytewise exclusive or, as long as the shorter argument (00_scope R14). -/
def xorBytes (x y : List Byte) : List Byte := List.zipWith (· ^^^ ·) x y

end Sys2Proof.Machine
end

