-- ==== Sys2Proof/Machine/Operands.lean ====
section
/-! DEFINITION. The operands of the commands, all implicit (30_encoding R72): access to the buffers and their bytes
(20_memory R50), the named places of a command, and the operand table. -/

namespace Sys2Proof.Machine

/-- The content of a buffer. -/
def Memory.get (m : Memory) : Buf → List Byte
  | .pw => m.pw
  | .aad => m.aad
  | .pt => m.pt
  | .ct => m.ct
  | .env => m.env

/-- `B <- v`: the whole content of a buffer replaced, and with it its length (00_scope R15). -/
def Memory.set (m : Memory) (b : Buf) (v : List Byte) : Memory :=
  match b with
  | .pw => { m with pw := v }
  | .aad => { m with aad := v }
  | .pt => { m with pt := v }
  | .ct => { m with ct := v }
  | .env => { m with env := v }

/-- The byte at offset `a` of a buffer; none at or beyond its length, where no byte exists (00_scope R15, log entry 2). -/
def Memory.readByte (m : Memory) (b : Buf) (a : Nat) : Option Byte := (m.get b)[a]?

/-- A buffer as cells of address and byte, addresses rising from 0 (log entry 1). -/
def Memory.cells (m : Memory) (b : Buf) : List Host.Cell := (m.get b).zipIdx.map fun p => (p.2, p.1)

/-- The capacity of a buffer (20_memory R52). -/
def Buf.capacity : Buf → Nat
  | .pw => Config.pwMax
  | .aad => Config.aadMax
  | .pt => Config.textMax
  | .ct => Config.textMax
  | .env => Config.envMax

/-- Every buffer's content is within its capacity (20_memory R53). -/
abbrev Memory.wf (m : Memory) : Prop :=
  m.pw.length ≤ Config.pwMax ∧ m.aad.length ≤ Config.aadMax ∧ m.pt.length ≤ Config.textMax ∧
    m.ct.length ≤ Config.textMax ∧ m.env.length ≤ Config.envMax

/-- The places a command reads or writes, beside `STATUS` (30_encoding R72). -/
inductive Loc where
  | key
  | salt
  | nonce
  | tag
  | buf (b : Buf)
  deriving DecidableEq, Repr

/-- The bytes a place holds. -/
def State.loc (s : State) : Loc → List Byte
  | .key => s.key.toList
  | .salt => s.salt.toList
  | .nonce => s.nonce.toList
  | .tag => s.tag.toList
  | .buf b => s.mem.get b

/-- The column `reads` of 30_encoding R72. -/
def readsOf : Instr → List Loc
  | .cmdDerive => [.buf .pw, .salt]
  | .cmdSeal => [.key, .nonce, .buf .pt, .buf .aad]
  | .cmdOpen => [.key, .nonce, .buf .ct, .tag, .buf .aad]
  | .cmdEncode => [.salt, .nonce, .buf .ct, .tag]
  | .cmdDecode => [.buf .env]
  | .cmdEncrypt => [.buf .pw, .buf .pt]
  | .cmdDecrypt => [.buf .pw, .buf .env]

/-- The column `writes on success` of 30_encoding R72. -/
def writesOf : Instr → List Loc
  | .cmdDerive => [.key]
  | .cmdSeal => [.buf .ct, .tag]
  | .cmdOpen => [.buf .pt]
  | .cmdEncode => [.buf .env]
  | .cmdDecode => [.salt, .nonce, .buf .ct, .tag]
  | .cmdEncrypt => [.buf .aad, .salt, .nonce, .buf .ct, .tag, .buf .env]
  | .cmdDecrypt => [.buf .aad, .salt, .nonce, .buf .ct, .tag, .buf .pt]

/-- The column `wipes on every exit` of 30_encoding R72. -/
def wipesOf : Instr → List Loc
  | .cmdDerive => [.buf .pw]
  | .cmdSeal => [.key]
  | .cmdOpen => [.key]
  | .cmdEncode => []
  | .cmdDecode => []
  | .cmdEncrypt => [.key, .buf .pw]
  | .cmdDecrypt => [.key, .buf .pw]

/-- The column `draws` of 30_encoding R72. -/
def drawsOf : Instr → Nat
  | .cmdDerive => 0
  | .cmdSeal => 0
  | .cmdOpen => 0
  | .cmdEncode => 0
  | .cmdDecode => 0
  | .cmdEncrypt => 40
  | .cmdDecrypt => 0

/-- Which codes a command can end with (60_exceptions R191, `errors` of spec/opcode_table.json). -/
def errorsOf : Instr → List ErrCode
  | .cmdDerive => [.ok, .keyDerivation]
  | .cmdSeal => [.ok, .command]
  | .cmdOpen => [.ok, .authentication, .command]
  | .cmdEncode => [.ok]
  | .cmdDecode => [.ok, .malformedEnvelope]
  | .cmdEncrypt => [.ok, .keyDerivation]
  | .cmdDecrypt => [.ok, .malformedEnvelope, .authentication, .keyDerivation]

end Sys2Proof.Machine
end

