-- ==== Sys2Proof/Machine/Ops.lean ====
section
/-! DEFINITION. The named operations on the state that the commands share: writes and wipes (00_scope R15), the random
draw (10_state R33), completion and error entry (60_exceptions R197), refusal (R195), waiting for randomness (R201),
reset (70_reset_and_hazards R220). -/

namespace Sys2Proof.Machine

/-- `B <- v` (00_scope R15). -/
def State.setBuf (s : State) (b : Buf) (v : List Byte) : State := { s with mem := s.mem.set b v }

/-- `wipe(B)`: `B <- empty` (10_state R41). -/
def State.wipeBuf (s : State) (b : Buf) : State := s.setBuf b []

/-- `KEY <- k; KEY_VALID <- 1` (10_state R21, R30). -/
def State.loadKey (s : State) (k : Octets 32) : State := { s with key := k, status := s.status.setKeyValid true }

/-- `wipe(KEY)`: `KEY <- zeros(32); KEY_VALID <- 0` (00_scope R15). -/
def State.wipeKey (s : State) : State := { s with key := zeros 32, status := s.status.setKeyValid false }

/-- `SALT <- v`. -/
def State.setSalt (s : State) (v : Octets 16) : State := { s with salt := v }

/-- `NONCE <- v`. -/
def State.setNonce (s : State) (v : Octets 24) : State := { s with nonce := v }

/-- `TAG <- v`. -/
def State.setTag (s : State) (v : Octets 16) : State := { s with tag := v }

/-- `SALT`, `NONCE`, `TAG` and `CT` cleared, the part of error entry that `DECODE`, `ENCRYPT` and `DECRYPT` share
(60_exceptions R197 (b)). -/
def State.clearFields (s : State) : State :=
  (((s.setSalt (zeros 16)).setNonce (zeros 24)).setTag (zeros 16)).wipeBuf .ct

/-- `draw(n)`: the bytes are taken off the random source (10_state R33). What they are is `s.rng.take n`. -/
def State.dropRandom (s : State) (n : Nat) : State := { s with rng := s.rng.drop n }

/-- The end of an accepted command with code `e`: working registers zero (10_state R40), status as R31 and R32 say. -/
def State.finish (s : State) (e : ErrCode) : State := { s with work := Work.zero, status := s.status.run e }

/-- `raise E` for an error of an accepted command: the status part of error entry (60_exceptions R197 (c), (d)).
Nothing is saved and there is no handler; what the command clears and wipes is in its own rule. -/
def State.raise (s : State) (e : ErrCode) : State := s.finish e

/-- `raise CommandError`: the command is refused and only `STATUS` changes (60_exceptions R195). -/
def State.refuse (s : State) : State := { s with status := s.status.run .command }

/-- The state that reset leaves: every piece of the core's state at its reset value, the random source, the pending
inputs and the last read untouched (70_reset_and_hazards R220). -/
def State.resetCore (s : State) : State :=
  { State.reset with rng := s.rng, inputs := s.inputs, readData := s.readData }

/-- The first input of the source or of the platform, with the inputs before and after it: neither waits for the
host's own order (10_state R20, 70_reset_and_hazards R221). -/
def splitOutside : List Input → Option (List Input × Input × List Input)
  | [] => none
  | .random v :: rest => some ([], .random v, rest)
  | .reset :: rest => some ([], .reset, rest)
  | a :: rest =>
    match splitOutside rest with
    | some (before, x, after) => some (a :: before, x, after)
    | none => none

/-- `ENCRYPT` without 40 random bytes has no step (10_state R33): its write of `CMD` stays the next input. A delivery
of the random source further on lifts the wait by landing first; a reset further on ends it (60_exceptions R201, R202;
70_reset_and_hazards R221; log entry 4). With neither the state stays as it is. -/
def State.awaitRandom (s : State) : State :=
  match splitOutside s.inputs with
  | some (before, .random v, after) =>
    { s with rng := s.rng ++ v, inputs := .writeCmd (encodeWord .cmdEncrypt) :: (before ++ after) }
  | some (before, .reset, after) => { s with inputs := before ++ after }.resetCore
  | _ => { s with inputs := .writeCmd (encodeWord .cmdEncrypt) :: s.inputs }

end Sys2Proof.Machine
end

