-- ==== Sys2Proof/Machine/Kdu.lean ====
section
/-! DEFINITION. The Key Derivation Unit: `DERIVE` (40_kdu). -/

namespace Sys2Proof.Machine

/-- `DERIVE` under a given `KDF` (40_kdu R91). -/
def deriveWith (kdf : Kdf) (s : State) : State :=
  match kdf s.mem.pw s.salt with
  | none => ((s.wipeBuf .pw).wipeKey).raise .keyDerivation
  | some k => ((s.wipeBuf .pw).loadKey k).finish .ok

/-- `DERIVE` (40_kdu R91). -/
def execDerive (s : State) : Host.Outcome State Fault Refusal := .next (deriveWith Config.kdf s)

end Sys2Proof.Machine
end

