-- ==== Sys2Proof/Machine/Chacha.lean ====
section
/-! DEFINITION. The XChaCha20 stream cipher (41_chacha; layouts of 30_encoding R79 to R82). -/

namespace Sys2Proof.Machine

/-- `qr(a, b, c, d)`, the quarter round (41_chacha R101). -/
def quarterRound (a b c d : Word) : Word × Word × Word × Word :=
  let a := a + b
  let d := (d ^^^ a).rotateLeft 16
  let c := c + d
  let b := (b ^^^ c).rotateLeft 12
  let a := a + b
  let d := (d ^^^ a).rotateLeft 8
  let c := c + d
  let b := (b ^^^ c).rotateLeft 7
  (a, b, c, d)

/-- `QR(i, j, k, l)` on the working state (41_chacha R101). -/
def quarterRoundAt (x : Vector Word 16) (i j k l : Fin 16) : Vector Word 16 :=
  let q := quarterRound x[i] x[j] x[k] x[l]
  (((x.set i q.1).set j q.2.1).set k q.2.2.1).set l q.2.2.2

/-- The column round (41_chacha R103). -/
def columnRound (x : Vector Word 16) : Vector Word 16 :=
  quarterRoundAt (quarterRoundAt (quarterRoundAt (quarterRoundAt x 0 4 8 12) 1 5 9 13) 2 6 10 14) 3 7 11 15

/-- The diagonal round (41_chacha R103). -/
def diagonalRound (x : Vector Word 16) : Vector Word 16 :=
  quarterRoundAt (quarterRoundAt (quarterRoundAt (quarterRoundAt x 0 5 10 15) 1 6 11 12) 2 7 8 13) 3 4 9 14

/-- One double round: the column round, then the diagonal round (41_chacha R103). -/
def doubleRound (x : Vector Word 16) : Vector Word 16 := diagonalRound (columnRound x)

/-- `n` double rounds. -/
def doubleRounds : Nat → Vector Word 16 → Vector Word 16
  | 0, x => x
  | n + 1, x => doubleRounds n (doubleRound x)

/-- `rounds20(X)`: ten double rounds (41_chacha R104). -/
def rounds20 (x : Vector Word 16) : Vector Word 16 := doubleRounds 10 x

/-- The four constant words, `"expand 32-byte k"` (41_chacha R102). -/
def chachaConstants : List Word := [0x61707865, 0x3320646e, 0x79622d32, 0x6b206574]

/-- The sixteen-word state: constants, the eight key words, then the four words `tail` (30_encoding R79, R80). -/
def initialState (k : Octets 32) (tail : List Word) : Vector Word 16 :=
  Vector.ofFn fun i => (chachaConstants ++ words k.toList ++ tail).getD i 0

/-- `chacha20_block(k, c, n)` (41_chacha R105; serialization 30_encoding R82). -/
def chachaBlock (k : Octets 32) (c : Word) (n : Octets 12) : Octets 64 :=
  let st := initialState k (c :: words n.toList)
  octets 64 (unwords (List.zipWith (· + ·) (rounds20 st).toList st.toList))

/-- The first `nb` keystream blocks from counter `c0` on, one after the other (30_encoding R82, 41_chacha R107). -/
def keystream (k : Octets 32) (c0 : Word) (n : Octets 12) (nb : Nat) : List Byte :=
  (List.range nb).flatMap fun j => (chachaBlock k (c0 + BitVec.ofNat 32 j) n).toList

/-- `chacha20_xor(k, c0, n, m)`: `m` against `ceil(len(m) / 64)` keystream blocks, the last used in part
(41_chacha R107). -/
def chachaXor (k : Octets 32) (c0 : Word) (n : Octets 12) (m : List Byte) : List Byte :=
  xorBytes m (keystream k c0 n ((m.length + 63) / 64))

/-- `hchacha20(k, q)`: the rounds without the feed-forward addition, words 0 to 3 and 12 to 15 of the result
(41_chacha R108, 30_encoding R80). -/
def hchacha (k : Octets 32) (q : Octets 16) : Octets 32 :=
  let x := (rounds20 (initialState k (words q.toList))).toList
  octets 32 (unwords (x.take 4 ++ x.drop 12))

/-- `xchacha20_keys(key, N)`: the subkey and the 12-byte inner nonce (41_chacha R109, 30_encoding R81). -/
def xchachaKeys (key : Octets 32) (nonce : Octets 24) : Octets 32 × Octets 12 :=
  (hchacha key (octets 16 nonce.toList), octets 12 ((zeros 4).toList ++ nonce.toList.drop 16))

/-- `xchacha20_block(key, N, c)` (41_chacha R110). -/
def xchachaBlock (key : Octets 32) (nonce : Octets 24) (c : Word) : Octets 64 :=
  chachaBlock (xchachaKeys key nonce).1 c (xchachaKeys key nonce).2

/-- `xchacha20_xor(key, N, c0, m)` (41_chacha R110). -/
def xchachaXor (key : Octets 32) (nonce : Octets 24) (c0 : Word) (m : List Byte) : List Byte :=
  chachaXor (xchachaKeys key nonce).1 c0 (xchachaKeys key nonce).2 m

end Sys2Proof.Machine
end

