-- ==== Sys2Proof/Machine/Poly.lean ====
section
/-! DEFINITION. The Poly1305 MAC engine and the constant-time comparator (42_poly1305; layouts of 30_encoding R83 to R85). -/

namespace Sys2Proof.Machine

/-- `P1305 = 2^130 - 5` (00_scope R8). -/
def p1305 : Nat := 2 ^ 130 - 5

/-- The clamp mask of `R` (30_encoding R83). -/
def clampMask : BitVec 128 := 0x0ffffffc0ffffffc0ffffffc0fffffff

/-- `R`: the clamped first half of the one-time key (42_poly1305 R121). -/
def polyR (k1 : Octets 32) : BitVec 128 := BitVec.ofNat 128 (leNum (k1.toList.take 16)) &&& clampMask

/-- `S`: the second half of the one-time key, unclamped (42_poly1305 R121). -/
def polyS (k1 : Octets 32) : BitVec 128 := BitVec.ofNat 128 (leNum (k1.toList.drop 16))

/-- `num(b) = le_num(b) + 2^(8*len(b))` (30_encoding R84). -/
def blockNum (b : List Byte) : Nat := leNum b + 2 ^ (8 * b.length)

/-- The blocks of a message: block `j` is `msg[16*j .. min(16*j + 16, L))`, `j < ceil(L / 16)` (42_poly1305 R122). -/
def polyBlocks (msg : List Byte) : List (List Byte) :=
  (List.range ((msg.length + 15) / 16)).map fun j => (msg.drop (16 * j)).take 16

/-- One block into the accumulator (42_poly1305 R123). -/
def polyStep (r acc : Nat) (b : List Byte) : Nat := ((acc + blockNum b) * r) % p1305

/-- `ACC` after all blocks, from zero (42_poly1305 R123). -/
def polyAcc (r : Nat) (msg : List Byte) : Nat := (polyBlocks msg).foldl (polyStep r) 0

/-- `poly1305(K1, msg)` with the finalization `(ACC + S) mod 2^128` (42_poly1305 R120, R124). -/
def poly1305 (k1 : Octets 32) (msg : List Byte) : Octets 16 :=
  octets 16 (toLe ((polyAcc (polyR k1).toNat msg + (polyS k1).toNat) % 2 ^ 128) 16)

/-- `pad16(x)`: zero bytes up to a multiple of 16 (30_encoding R85). -/
def pad16 (x : List Byte) : List Byte := List.replicate ((16 - x.length % 16) % 16) 0

/-- `mac_data(A, C)` (30_encoding R85). -/
def macData (aad ct : List Byte) : List Byte :=
  aad ++ pad16 aad ++ ct ++ pad16 ct ++ le64 aad.length ++ le64 ct.length

/-- `aead_tag(K1, A, C)` (42_poly1305 R127). -/
def aeadTag (k1 : Octets 32) (aad ct : List Byte) : Octets 16 := poly1305 k1 (macData aad ct)

/-- `one_time_key(key, N)`: the first 32 bytes of the keystream block with counter 0 (42_poly1305 R126). -/
def oneTimeKey (key : Octets 32) (nonce : Octets 24) : Octets 32 := octets 32 (xchachaBlock key nonce 0).toList

/-- The comparator's accumulator `DIFF` (10_state R38) and how many byte positions it has gone through
(42_poly1305 R131). -/
structure CtRun where
  diff : Byte
  steps : Nat
  deriving DecidableEq, Repr

/-- One byte position: `DIFF <- DIFF | (a[i] ^ b[i])` (42_poly1305 R130). -/
def ctStep (run : CtRun) (p : Byte × Byte) : CtRun := ⟨run.diff ||| (p.1 ^^^ p.2), run.steps + 1⟩

/-- The whole loop of `ct_eq`, without an early exit (42_poly1305 R130). -/
def ctRun (a b : Octets 16) : CtRun := (a.toList.zip b.toList).foldl ctStep ⟨0, 0⟩

/-- `ct_eq(a, b)`: `DIFF = 0x00` after all positions (42_poly1305 R130). -/
def ctEq (a b : Octets 16) : Bool := (ctRun a b).diff == 0

end Sys2Proof.Machine
end

