-- ==== Sys2Proof/Machine/Aead.lean ====
section
/-! DEFINITION. The AEAD Engine: `seal`, `open`, `SEAL`, `OPEN` (43_aead). -/

namespace Sys2Proof.Machine

/-- `seal(key, N, P, A)`: the ciphertext from text block 1 on, and the tag over it (43_aead R140). -/
def aeadSeal (key : Octets 32) (nonce : Octets 24) (pt aad : List Byte) : List Byte × Octets 16 :=
  let ct := xchachaXor key nonce 1 pt
  (ct, aeadTag (oneTimeKey key nonce) aad ct)

/-- `open(key, N, C, T, A)`: none is `AuthenticationError`; the tag is verified before anything is deciphered
(43_aead R142). -/
def aeadOpen (key : Octets 32) (nonce : Octets 24) (ct : List Byte) (tag : Octets 16) (aad : List Byte) :
    Option (List Byte) :=
  if ctEq tag (aeadTag (oneTimeKey key nonce) aad ct) then some (xchachaXor key nonce 1 ct) else none

/-- `SEAL` with a valid key (43_aead R141). -/
def sealAccepted (s : State) : State :=
  let r := aeadSeal s.key s.nonce s.mem.pt s.mem.aad
  (((s.setBuf .ct r.1).setTag r.2).wipeKey).finish .ok

/-- `OPEN` with a valid key (43_aead R143). -/
def openAccepted (s : State) : State :=
  match aeadOpen s.key s.nonce s.mem.ct s.tag s.mem.aad with
  | none => ((s.wipeKey).wipeBuf .pt).raise .authentication
  | some p => ((s.wipeKey).setBuf .pt p).finish .ok

/-- `SEAL` (43_aead R141): refused without a valid key. -/
def execSeal (s : State) : Host.Outcome State Fault Refusal :=
  .next (if s.status.keyValid then sealAccepted s else s.refuse)

/-- `OPEN` (43_aead R143): refused without a valid key. -/
def execOpen (s : State) : Host.Outcome State Fault Refusal :=
  .next (if s.status.keyValid then openAccepted s else s.refuse)

end Sys2Proof.Machine
end

