-- ==== Sys2Proof/Machine/Envelope.lean ====
section
/-! DEFINITION. The Envelope Codec: `encode`, `decode`, `ENCODE`, `DECODE` (44_envelope; layout 30_encoding R76). -/

namespace Sys2Proof.Machine

/-- `MIN_ENVELOPE = 56` (00_scope R7). -/
def minEnvelope : Nat := 56

/-- `encode(salt, N, C, T) = salt || N || C || T` (44_envelope R160). -/
def encodeEnvelope (salt : Octets 16) (nonce : Octets 24) (ct : List Byte) (tag : Octets 16) : List Byte :=
  salt.toList ++ nonce.toList ++ ct ++ tag.toList

/-- The four fields of an envelope (30_encoding R76). -/
structure EnvelopeFields where
  salt : Octets 16
  nonce : Octets 24
  ct : List Byte
  tag : Octets 16
  deriving DecidableEq, Repr

/-- `decode(E)`: none is `MalformedEnvelopeError`, exactly when `len(E) < 56` (44_envelope R162). -/
def decodeEnvelope (e : List Byte) : Option EnvelopeFields :=
  if e.length < minEnvelope then none
  else some
    { salt := octets 16 e
      nonce := octets 24 (e.drop 16)
      ct := (e.drop 40).take (e.length - 56)
      tag := octets 16 (e.drop (e.length - 16)) }

/-- `SALT`, `NONCE`, `CT` and `TAG` written from an envelope (44_envelope R163, 45_public R173). -/
def State.setFields (s : State) (f : EnvelopeFields) : State :=
  (((s.setSalt f.salt).setNonce f.nonce).setBuf .ct f.ct).setTag f.tag

/-- `ENCODE` (44_envelope R161). -/
def encodeAccepted (s : State) : State :=
  (s.setBuf .env (encodeEnvelope s.salt s.nonce s.mem.ct s.tag)).finish .ok

/-- `DECODE` (44_envelope R163). -/
def decodeAccepted (s : State) : State :=
  match decodeEnvelope s.mem.env with
  | none => s.clearFields.raise .malformedEnvelope
  | some f => (s.setFields f).finish .ok

/-- `ENCODE` (44_envelope R161). -/
def execEncode (s : State) : Host.Outcome State Fault Refusal := .next (encodeAccepted s)

/-- `DECODE` (44_envelope R163). -/
def execDecode (s : State) : Host.Outcome State Fault Refusal := .next (decodeAccepted s)

end Sys2Proof.Machine
end

