-- ==== Sys2Proof/Machine/Public.lean ====
section
/-! DEFINITION. The public surface: `ENCRYPT` and `DECRYPT` (45_public). -/

namespace Sys2Proof.Machine

/-- The rest of `ENCRYPT` once `KDF` has answered, `SALT` and `NONCE` loaded, `AAD` empty, `PW` wiped
(45_public R171). -/
def encryptTail (s : State) : Option (Octets 32) → State
  | none => ((s.clearFields.wipeBuf .env).wipeKey).raise .keyDerivation
  | some k =>
    let r := aeadSeal k s.nonce s.mem.pt []
    (((((s.setBuf .ct r.1).setTag r.2).setBuf .env (encodeEnvelope s.salt s.nonce r.1 r.2)).wipeKey)).finish .ok

/-- `ENCRYPT` under a given `KDF`, 40 random bytes being available (45_public R171). -/
def encryptDrawn (kdf : Kdf) (s : State) : State :=
  let salt := octets 16 s.rng
  let nonce := octets 24 (s.rng.drop 16)
  encryptTail (((((s.wipeBuf .aad).dropRandom 40).setSalt salt).setNonce nonce).wipeBuf .pw) (kdf s.mem.pw salt)

/-- `ENCRYPT` under a given `KDF`: it waits while fewer than 40 random bytes are available (10_state R33). -/
def encryptWith (kdf : Kdf) (s : State) : State :=
  if s.rng.length < 40 then s.awaitRandom else encryptDrawn kdf s

/-- `clear_outputs` of `DECRYPT` (45_public R173). -/
def State.clearOutputs (s : State) : State := s.clearFields.wipeBuf .pt

/-- The rest of `DECRYPT` once `KDF` has answered, the envelope's fields loaded, `AAD` empty, `PW` wiped
(45_public R173). -/
def decryptTail (s : State) : Option (Octets 32) → State
  | none => (s.clearOutputs.wipeKey).raise .keyDerivation
  | some k =>
    match aeadOpen k s.nonce s.mem.ct s.tag [] with
    | none => (s.wipeKey.clearOutputs).raise .authentication
    | some p => (s.wipeKey.setBuf .pt p).finish .ok

/-- `DECRYPT` under a given `KDF` (45_public R173). -/
def decryptWith (kdf : Kdf) (s : State) : State :=
  match decodeEnvelope s.mem.env with
  | none => ((((s.wipeBuf .aad).clearOutputs).wipeBuf .pw).wipeKey).raise .malformedEnvelope
  | some f => decryptTail (((s.wipeBuf .aad).setFields f).wipeBuf .pw) (kdf s.mem.pw f.salt)

/-- `ENCRYPT` (45_public R171). -/
def execEncrypt (s : State) : Host.Outcome State Fault Refusal := .next (encryptWith Config.kdf s)

/-- `DECRYPT` (45_public R173). -/
def execDecrypt (s : State) : Host.Outcome State Fault Refusal := .next (decryptWith Config.kdf s)

end Sys2Proof.Machine
end

