-- ==== Sys2Proof/Machine/Dispatch.lean ====
section
/-! DEFINITION. exec: one arm per command, each one call of its meaning. -/

namespace Sys2Proof.Machine

def exec (i : Instr) (s : State) : Host.Outcome State Fault Refusal :=
  match i with
  | .cmdDerive => Sys2Proof.Machine.execDerive s
  | .cmdSeal => Sys2Proof.Machine.execSeal s
  | .cmdOpen => Sys2Proof.Machine.execOpen s
  | .cmdEncode => Sys2Proof.Machine.execEncode s
  | .cmdDecode => Sys2Proof.Machine.execDecode s
  | .cmdEncrypt => Sys2Proof.Machine.execEncrypt s
  | .cmdDecrypt => Sys2Proof.Machine.execDecrypt s

end Sys2Proof.Machine
end

