-- ==== Sys2Proof/Machine/HostPort.lean ====
section
/-! DEFINITION. The host's side of the core: reads and writes between commands (10_state R43), admission (20_memory
R53), the write of `CMD` (10_state R27, 30_encoding R88), and which input the core takes next. -/

namespace Sys2Proof.Machine

/-- The zero or empty answer to a read while `BUSY = 1` (10_state R43). -/
def zeroValue : HostItem → HostValue
  | .key => .bytes (zeros 32).toList
  | .salt => .bytes (zeros 16).toList
  | .nonce => .bytes (zeros 24).toList
  | .tag => .bytes (zeros 16).toList
  | .buf _ => .bytes []
  | .len _ => .length 0
  | .cmd => .byte 0
  | .status => .byte 0

/-- The answer to a read while `BUSY = 0` (10_state R43): `KEY` zeros, `PW` empty with length 0, `CMD` 0x00. -/
def idleValue (s : State) : HostItem → HostValue
  | .key => .bytes (zeros 32).toList
  | .salt => .bytes s.salt.toList
  | .nonce => .bytes s.nonce.toList
  | .tag => .bytes s.tag.toList
  | .buf .pw => .bytes []
  | .buf b => .bytes (s.mem.get b)
  | .len .pw => .length 0
  | .len b => .length (BitVec.ofNat 64 (s.mem.get b).length)
  | .cmd => .byte 0
  | .status => .byte s.status.word

/-- What a host read answers (10_state R43); `STATUS` is readable at any time. -/
def hostRead (s : State) (item : HostItem) : HostValue :=
  if s.status.busy && item != .status then zeroValue item else idleValue s item

/-- A host write of a buffer: not admitted, without effect, when it is longer than the capacity (20_memory R53). -/
def State.hostLoad (s : State) (b : Buf) (v : List Byte) : State :=
  if v.length ≤ b.capacity then s.setBuf b v else s

/-- A host access, a delivery or a reset other than a write of `CMD`, while `BUSY = 0` (10_state R43). A write of
`STATUS`, or of a length register (log entry 18), has no effect. -/
def accessIdle (s : State) : Input → State
  | .loadKey v => s.loadKey v
  | .loadSalt v => s.setSalt v
  | .loadNonce v => s.setNonce v
  | .loadTag v => s.setTag v
  | .loadBuf b v => s.hostLoad b v
  | .writeCmd _ => s
  | .writeStatus _ => s
  | .writeLen _ _ => s
  | .read item => { s with readData := some (hostRead s item) }
  | .random v => { s with rng := s.rng ++ v }
  | .reset => s.resetCore

/-- The same while `BUSY = 1`: every host write is dropped (10_state R43); reads, deliveries and reset remain. -/
def accessBusy (s : State) : Input → State
  | .loadKey _ => s
  | .loadSalt _ => s
  | .loadNonce _ => s
  | .loadTag _ => s
  | .loadBuf _ _ => s
  | .writeCmd _ => s
  | .writeStatus _ => s
  | .writeLen _ _ => s
  | .read item => { s with readData := some (hostRead s item) }
  | .random v => { s with rng := s.rng ++ v }
  | .reset => s.resetCore

/-- An input other than an accepted write of `CMD`. -/
def access (s : State) (a : Input) : State := if s.status.busy then accessBusy s a else accessIdle s a

/-- What the core does next. -/
inductive Fetched where
  /-- A command is issued in this state, its write of `CMD` taken. -/
  | command (i : Instr) (t : State)
  /-- Nothing is issued: the input is done with, or there is none and the core stays idle. -/
  | settled (t : State)
  deriving DecidableEq, Repr

/-- The write of `CMD` with word `w` (10_state R27, 30_encoding R88): dropped while `BUSY = 1`; refused when the word
is reserved (R73). -/
def issue (s : State) (w : BitVec 8) : Fetched :=
  if s.status.busy then .settled s
  else
    match decodeWord w with
    | .ok i => .command i s
    | .error _ => .settled s.refuse

/-- The next input taken off the list (20_memory R61); with none the core is idle. -/
def fetch (s : State) : Fetched :=
  match s.inputs with
  | [] => .settled s
  | .writeCmd w :: rest => issue { s with inputs := rest } w
  | a :: rest => .settled (access { s with inputs := rest } a)

/-- Random bytes put at the port so that a command that draws `n` of them finds them (log entry 6). -/
def State.withRandom (s : State) (n : Nat) : State :=
  { s with rng := s.rng ++ List.replicate (n - s.rng.length) 0 }

/-- A write of `CMD` with `w` made the next input, the core not busy, and the random bytes at the port that the
command of `w` draws (log entry 6). -/
def State.withCommand (s : State) (w : BitVec 8) : State :=
  let t := { s with inputs := .writeCmd w :: s.inputs, status := { s.status with busy := false } }
  match decodeWord w with
  | .ok i => t.withRandom (drawsOf i)
  | .error _ => t

end Sys2Proof.Machine
end

