-- ==== Sys2Proof/Machine/Step.lean ====
section
/-! DEFINITION. One step: the next input is taken; a command runs whole (00_scope R17). -/

namespace Sys2Proof.Machine

/-- One step of the machine. The core has no program counter (10_state R26): what runs next is what the host writes
to `CMD` next. -/
def step (s : State) : Host.Outcome State Fault Refusal :=
  match fetch s with
  | .command i t => exec i t
  | .settled t => .next t

/-- `s` with the instruction of `nbits` bits numbered `w` as the next write of `CMD` (log entry 6). A command is one
byte, so only the low 8 bits exist (30_encoding R70). -/
def State.withFetchWord (s : State) (_nbits w : Nat) : State := s.withCommand (BitVec.ofNat 8 w)

end Sys2Proof.Machine
end

