-- ==== Sys2Proof/Safety.lean ====
section
/-! DEFINITION. What counts as a sound state, as an accepted command and as a step that takes a reset; runs; and the
named premises of the spec, all in the terms the statements use. -/

namespace Sys2Proof.Machine

/-- The command is accepted and has its own effect: `SEAL` and `OPEN` need a valid key (43_aead R141, R143), `ENCRYPT`
needs 40 random bytes (10_state R33), the others nothing. -/
def Accepts (i : Instr) (s : State) : Prop :=
  match i with
  | .cmdSeal => s.status.keyValid = true
  | .cmdOpen => s.status.keyValid = true
  | .cmdEncrypt => 40 ≤ s.rng.length
  | .cmdDerive => True
  | .cmdEncode => True
  | .cmdDecode => True
  | .cmdDecrypt => True

/-- The command has a step: any command does, except `ENCRYPT` waiting for 40 random bytes (20_memory R66). -/
def HasStep (i : Instr) (s : State) : Prop := i = .cmdEncrypt → 40 ≤ s.rng.length

/-- The input is the random source's or the platform's, not the host's (10_state R20, 70_reset_and_hazards R236). -/
def Input.isOutside : Input → Bool
  | .random _ => true
  | .reset => true
  | .loadKey _ => false
  | .loadSalt _ => false
  | .loadNonce _ => false
  | .loadTag _ => false
  | .loadBuf _ _ => false
  | .writeCmd _ => false
  | .writeStatus _ => false
  | .writeLen _ _ => false
  | .read _ => false

/-- The input is a host write, to `CMD` included (10_state R43). -/
def Input.isHostWrite : Input → Bool
  | .random _ => false
  | .reset => false
  | .loadKey _ => true
  | .loadSalt _ => true
  | .loadNonce _ => true
  | .loadTag _ => true
  | .loadBuf _ _ => true
  | .writeCmd _ => true
  | .writeStatus _ => true
  | .writeLen _ _ => true
  | .read _ => false

/-- The invariant of the machine between steps. -/
structure Inv (s : State) : Prop where
  /-- Every buffer is within its capacity (20_memory R53). -/
  memory : s.mem.wf
  /-- `KEY_VALID = 0` implies `KEY = zeros(32)` (10_state R30). -/
  noStaleKey : s.status.keyValid = false → s.key = zeros 32
  /-- The model never shows `BUSY = 1` (10_state R31). -/
  idle : s.status.busy = false
  /-- The working registers are zero (10_state R40). -/
  noWork : s.work = Work.zero
  /-- An `ERR` of `KeyDerivationError` left its mark in `FATAL` (10_state R32). -/
  fatalMark : s.status.err = .keyDerivation → s.status.fatal = true
  /-- Before any command has completed `ERR` is 0 (10_state R29, R45). -/
  freshErr : s.status.done = false → s.status.err = .ok

/-- The two states have the same content in every place of the list. -/
def AgreeOn (ls : List Loc) (s t : State) : Prop := ∀ l ∈ ls, s.loc l = t.loc l

/-- The step from `s` to `t` takes a reset (70_reset_and_hazards R220, R221): the reset is the next input, or it is the
first event from outside behind an `ENCRYPT` that waits for randomness (log entry 4). -/
def TakesReset (s t : State) : Prop :=
  (∃ rest, s.inputs = .reset :: rest ∧
    t = { State.reset with rng := s.rng, inputs := rest, readData := s.readData }) ∨
  ∃ before after, s.inputs = .writeCmd 0x06 :: (before ++ .reset :: after) ∧
    (∀ a ∈ before, a.isOutside = false) ∧ s.status.busy = false ∧ s.rng.length < 40 ∧
    t = { State.reset with rng := s.rng, inputs := before ++ after, readData := s.readData }

/-- The run from `s`: the state after `n` steps. A step that answered no next state would end the run where it is;
none does (60_exceptions R201). -/
def State.after (s : State) : Nat → State
  | 0 => s
  | n + 1 =>
    match step (s.after n) with
    | .next t => t
    | .fault _ => s.after n
    | .refused _ => s.after n

/-- The command is issued and not dropped: its word is the next write of `CMD` and `BUSY` is 0 (10_state R27). -/
def Issues (i : Instr) (s : State) : Prop :=
  (∃ rest, s.inputs = .writeCmd (encodeWord i) :: rest) ∧ s.status.busy = false

/-- The step draws the 40 bytes `v` (10_state R33): an issued `ENCRYPT` finds them at the port. -/
def Draws (s : State) (v : List Byte) : Prop := Issues .cmdEncrypt s ∧ 40 ≤ s.rng.length ∧ v = s.rng.take 40

/-- An issued `ENCRYPT` waits for its draw in this step (10_state R33). -/
def Waits (s : State) : Prop := Issues .cmdEncrypt s ∧ s.rng.length < 40

/-- The step is a `SEAL` that reads this key and nonce; a refused `SEAL` reads neither (43_aead R141). -/
def SealReads (s : State) (key : Octets 32) (nonce : Octets 24) : Prop :=
  Issues .cmdSeal s ∧ s.status.keyValid = true ∧ key = s.key ∧ nonce = s.nonce

/-! The named premises of 70_reset_and_hazards R237, those over one function or state first, then those over the run
from a state. None is assumed anywhere; a statement that needs one takes it as a hypothesis. -/

/-- `clean_entry`: the core's state is the reset state. -/
def CleanEntry (s : State) : Prop := s = s.resetCore

/-- `KDF_never_fails`. -/
def KdfNeverFails (kdf : Kdf) : Prop := ∀ pw salt, kdf pw salt ≠ none

/-- `KDF_separates(pw1, pw2, salt)`. -/
def KdfSeparates (kdf : Kdf) (pw₁ pw₂ : List Byte) (salt : Octets 16) : Prop := kdf pw₁ salt ≠ kdf pw₂ salt

/-- `tags_differ(K1, m1, m2)`. -/
def TagsDiffer (k1 : Octets 32) (m₁ m₂ : List Byte) : Prop := poly1305 k1 m₁ ≠ poly1305 k1 m₂

/-- `RNG_delivers`: every draw of the run is answered: whenever `ENCRYPT` is issued it waits a number of steps, none, or
some in which no reset abandons it, and then draws (10_state R33). -/
def RngDelivers (s : State) : Prop :=
  ∀ n, Issues .cmdEncrypt (s.after n) → ∃ m, n ≤ m ∧ (∃ v, Draws (s.after m) v) ∧
    ∀ k, n ≤ k → k < m → Waits (s.after k) ∧ ¬ TakesReset (s.after k) (s.after (k + 1))

/-- `RNG_fresh` for a given pair of draws: steps `m` and `n` of the run do not draw the same bytes (45_public R179). -/
def DrawsDiffer (s : State) (m n : Nat) : Prop := ∀ v w, Draws (s.after m) v → Draws (s.after n) w → v ≠ w

/-- `RNG_fresh`: no two draws of the run are equal (45_public R179). -/
def RngFresh (s : State) : Prop := ∀ m n, m ≠ n → DrawsDiffer s m n

/-- `no_reuse`: no two `SEAL` steps of the run read the same key and nonce (R224). -/
def NoReuse (s : State) : Prop :=
  ∀ m n key nonce, SealReads (s.after m) key nonce → SealReads (s.after n) key nonce → m = n

/-- A state with another `KEY`, password and working registers, everything else the same. -/
def State.withSecrets (s : State) (key : Octets 32) (pw : List Byte) (work : Work) : State :=
  { s with key := key, mem := s.mem.set .pw pw, work := work }

end Sys2Proof.Machine
end

