-- ==== Sys2Proof/Certificates/Slice0/Obligations.lean ====
section
/-! DEFINITION. The statements for the provers. Each is a rule of spec/ or derived from rules named in OBLIGATIONS.json.

`Config.kdf` has no body, so no concrete state can be shown on which it answers a key, or on which it fails. A statement
about a command that runs `KDF` therefore either matches on its answer, with no hypothesis on it, or holds for EVERY
function `kdf` of its type through the operation the meaning is (`deriveWith`, `encryptWith`, `decryptWith`; `exec` runs
them at `Config.kdf`). -/

open Sys2Proof Sys2Proof.Machine

/-! ## Decoding -/

/-- 30_encoding R71: decoding the word of a command gives the command. -/
def Obligations.DecodeOfEncodeIsTheCommand : Prop :=
  ∀ (i : Instr) (rest : List Byte), decode (encode i ++ rest) = .ok (i, rest)

/-- 30_encoding R88: the word is reserved exactly when `w[7:3] != 0` or `w[2:0] = 0`; otherwise the command is row
`w[2:0]` of the table of R71. -/
def Obligations.DecodingFollowsTheProcedure : Prop :=
  ∀ w : BitVec 8,
    ((w.extractLsb' 3 5 ≠ 0 ∨ w.extractLsb' 0 3 = 0) → ∃ e, decodeWord w = .error e) ∧
    (w.extractLsb' 3 5 = 0 → w.extractLsb' 0 3 ≠ 0 →
      ∃ i, decodeWord w = .ok i ∧
        [Instr.cmdDerive, .cmdSeal, .cmdOpen, .cmdEncode, .cmdDecode, .cmdEncrypt, .cmdDecrypt][
          (w.extractLsb' 0 3).toNat - 1]? = some i)

/-- 30_encoding R71, R73: a few words written out bit by bit. -/
def Obligations.SampleWordsDecode : Prop :=
  decodeWord 0b00000001#8 = .ok .cmdDerive ∧ decodeWord 0b00000011#8 = .ok .cmdOpen ∧
  decodeWord 0b00000101#8 = .ok .cmdDecode ∧ decodeWord 0b00000110#8 = .ok .cmdEncrypt ∧
  decodeWord 0b00000000#8 = .error .reservedOpcode ∧ decodeWord 0b00001000#8 = .error .reservedZeroField ∧
  decodeWord 0b10000011#8 = .error .reservedZeroField

/-! ## The step -/

/-- 10_state R27: a write of `CMD` while `BUSY = 0` issues the command its word encodes; the write is taken off the
pending inputs (the model's own list, log entry 5) and nothing else happens around the command. -/
def Obligations.StepRunsTheDecodedCommand : Prop :=
  ∀ (s : State) (w : BitVec 8) (rest : List Input) (i : Instr),
    s.inputs = .writeCmd w :: rest → s.status.busy = false → decodeWord w = .ok i →
    step s = exec i { s with inputs := rest }

/-- 30_encoding R73, 60_exceptions R195: a reserved word completes with `CommandError` and changes nothing but
`STATUS`; every other word is one of the seven commands. -/
def Obligations.ReservedWordIsRefused : Prop :=
  (∀ (s : State) (w : BitVec 8) (rest : List Input),
    s.inputs = .writeCmd w :: rest → s.status.busy = false → (w = 0 ∨ 8 ≤ w.toNat) →
    step s = .next { s with
      inputs := rest
      status := { s.status with err := .command, done := true } }) ∧
  ∀ w : BitVec 8, (∃ i, decodeWord w = .ok i ∧ encode i = [w]) ∨ w = 0 ∨ 8 ≤ w.toNat

/-- 60_exceptions R201 (no fault, no hang, no undefined behaviour): every step and every command of every state
answers a next state. That a waiting `ENCRYPT` answers one too is the model's choice (log entry 4). -/
def Obligations.EveryStepAnswersANextState : Prop :=
  (∀ s : State, ∃ t, step s = .next t) ∧ ∀ (i : Instr) (s : State), ∃ t, exec i s = .next t

/-- 70_reset_and_hazards R220: with nothing written the core is idle. That an idle machine steps to itself is the
model's choice (log entry 5). -/
def Obligations.IdleWithoutInput : Prop :=
  ∀ s : State, s.inputs = [] → step s = .next s

/-! ## What each command does -/

/-- 40_kdu R91: `DERIVE`, for whatever `KDF` answers. -/
def Obligations.DeriveCommand : Prop :=
  ∀ s : State, exec .cmdDerive s = .next
    (match Config.kdf s.mem.pw s.salt with
     | some k => { s with
        key := k
        mem := { s.mem with pw := [] }
        work := Work.zero
        status := { err := .ok, keyValid := true, done := true, busy := false, fatal := s.status.fatal } }
     | none => { s with
        key := zeros 32
        mem := { s.mem with pw := [] }
        work := Work.zero
        status := { err := .keyDerivation, keyValid := false, done := true, busy := false, fatal := true } })

/-- 43_aead R141: `SEAL` with a valid key, and without one. -/
def Obligations.SealCommand : Prop :=
  ∀ s : State,
    (s.status.keyValid = true → exec .cmdSeal s = .next { s with
      key := zeros 32
      tag := (aeadSeal s.key s.nonce s.mem.pt s.mem.aad).2
      mem := { s.mem with ct := (aeadSeal s.key s.nonce s.mem.pt s.mem.aad).1 }
      work := Work.zero
      status := { err := .ok, keyValid := false, done := true, busy := false, fatal := s.status.fatal } }) ∧
    (s.status.keyValid = false → exec .cmdSeal s = .next { s with
      status := { err := .command, keyValid := false, done := true, busy := false, fatal := s.status.fatal } })

/-- 43_aead R143: `OPEN` with a matching tag, with another tag, and without a valid key. -/
def Obligations.OpenCommand : Prop :=
  ∀ s : State,
    (s.status.keyValid = true → s.tag = aeadTag (oneTimeKey s.key s.nonce) s.mem.aad s.mem.ct →
      exec .cmdOpen s = .next { s with
        key := zeros 32
        mem := { s.mem with pt := xchachaXor s.key s.nonce 1 s.mem.ct }
        work := Work.zero
        status := { err := .ok, keyValid := false, done := true, busy := false, fatal := s.status.fatal } }) ∧
    (s.status.keyValid = true → s.tag ≠ aeadTag (oneTimeKey s.key s.nonce) s.mem.aad s.mem.ct →
      exec .cmdOpen s = .next { s with
        key := zeros 32
        mem := { s.mem with pt := [] }
        work := Work.zero
        status :=
          { err := .authentication, keyValid := false, done := true, busy := false, fatal := s.status.fatal } }) ∧
    (s.status.keyValid = false → exec .cmdOpen s = .next { s with
      status := { err := .command, keyValid := false, done := true, busy := false, fatal := s.status.fatal } })

/-- 44_envelope R161: `ENCODE`; the working registers are zero after it as after every command (10_state R40). -/
def Obligations.EncodeCommand : Prop :=
  ∀ s : State, exec .cmdEncode s = .next { s with
    mem := { s.mem with env := s.salt.toList ++ s.nonce.toList ++ s.mem.ct ++ s.tag.toList }
    work := Work.zero
    status := { s.status with err := .ok, done := true, busy := false } }

/-- 44_envelope R163: `DECODE` of an envelope of 56 bytes or more, and of a shorter one. -/
def Obligations.DecodeCommand : Prop :=
  ∀ s : State,
    (∀ (salt : Octets 16) (nonce : Octets 24) (ct : List Byte) (tag : Octets 16),
      s.mem.env = salt.toList ++ nonce.toList ++ ct ++ tag.toList →
      exec .cmdDecode s = .next { s with
        salt := salt
        nonce := nonce
        tag := tag
        mem := { s.mem with ct := ct }
        work := Work.zero
        status := { s.status with err := .ok, done := true, busy := false } }) ∧
    (s.mem.env.length < 56 → exec .cmdDecode s = .next { s with
      salt := zeros 16
      nonce := zeros 24
      tag := zeros 16
      mem := { s.mem with ct := [] }
      work := Work.zero
      status := { s.status with err := .malformedEnvelope, done := true, busy := false } }) ∧
    (56 ≤ s.mem.env.length → ∃ (salt : Octets 16) (nonce : Octets 24) (ct : List Byte) (tag : Octets 16),
      s.mem.env = salt.toList ++ nonce.toList ++ ct ++ tag.toList)

/-- 45_public R171: `ENCRYPT` on a draw `salt || nonce`, for whatever `KDF` answers. -/
def Obligations.EncryptCommand : Prop :=
  ∀ (s : State) (salt : Octets 16) (nonce : Octets 24) (rest : List Byte),
    s.rng = salt.toList ++ nonce.toList ++ rest →
    exec .cmdEncrypt s = .next
      (match Config.kdf s.mem.pw salt with
       | some k => { s with
          key := zeros 32
          salt := salt
          nonce := nonce
          tag := (aeadSeal k nonce s.mem.pt []).2
          mem :=
            { pw := []
              aad := []
              pt := s.mem.pt
              ct := (aeadSeal k nonce s.mem.pt []).1
              env := salt.toList ++ nonce.toList ++ (aeadSeal k nonce s.mem.pt []).1
                ++ (aeadSeal k nonce s.mem.pt []).2.toList }
          work := Work.zero
          rng := rest
          status := { err := .ok, keyValid := false, done := true, busy := false, fatal := s.status.fatal } }
       | none => { s with
          key := zeros 32
          salt := zeros 16
          nonce := zeros 24
          tag := zeros 16
          mem := { pw := [], aad := [], pt := s.mem.pt, ct := [], env := [] }
          work := Work.zero
          rng := rest
          status := { err := .keyDerivation, keyValid := false, done := true, busy := false, fatal := true } })

/-- 10_state R33, 60_exceptions R201: while fewer than 40 random bytes are available and neither a delivery nor a reset
is pending, `ENCRYPT` has no step. That the machine then steps to itself is the model's choice (log entry 4). -/
def Obligations.EncryptWaitsForRandomness : Prop :=
  ∀ (s : State) (rest : List Input),
    s.inputs = .writeCmd 0x06 :: rest → s.status.busy = false → s.rng.length < 40 →
    (∀ a ∈ rest, a.isOutside = false) → step s = .next s

/-- 60_exceptions R201: the wait of `ENCRYPT` is lifted by the random source delivering, before the host's own next
accesses; 70_reset_and_hazards R221: a reset ends it. That these come from one list is the model's choice
(log entry 4). -/
def Obligations.WaitEndsByDeliveryOrReset : Prop :=
  ∀ (s : State) (before after : List Input),
    s.status.busy = false → s.rng.length < 40 → (∀ a ∈ before, a.isOutside = false) →
    (∀ v, s.inputs = .writeCmd 0x06 :: (before ++ .random v :: after) →
      step s = .next { s with rng := s.rng ++ v, inputs := .writeCmd 0x06 :: (before ++ after) }) ∧
    (s.inputs = .writeCmd 0x06 :: (before ++ .reset :: after) →
      step s = .next { State.reset with rng := s.rng, inputs := before ++ after, readData := s.readData })

/-- 60_exceptions R201 under the premise `RNG_delivers` of 70_reset_and_hazards R237: an issued `ENCRYPT` is not stuck. It
comes to draw 40 bytes with its operands as they were when it was issued, completes with one of its codes, and exactly
the bytes it drew are gone. That a waiting `ENCRYPT` stays the next input is the model's choice (log entry 4). -/
def Obligations.EncryptCompletesWhenTheSourceDelivers : Prop :=
  ∀ s : State, RngDelivers s → ∀ n, Issues .cmdEncrypt (s.after n) →
    ∃ m v, n ≤ m ∧ Draws (s.after m) v ∧ (s.after m).mem = (s.after n).mem ∧
      (s.after (m + 1)).status.done = true ∧ (s.after (m + 1)).status.err ∈ errorsOf .cmdEncrypt ∧
      (s.after m).rng = v ++ (s.after (m + 1)).rng

/-- 45_public R173: `DECRYPT` of an envelope shorter than 56 bytes, and of `salt || nonce || ct || tag`, for whatever
`KDF` answers. -/
def Obligations.DecryptCommand : Prop :=
  ∀ s : State,
    (s.mem.env.length < 56 → exec .cmdDecrypt s = .next { s with
      key := zeros 32
      salt := zeros 16
      nonce := zeros 24
      tag := zeros 16
      mem := { pw := [], aad := [], pt := [], ct := [], env := s.mem.env }
      work := Work.zero
      status :=
        { err := .malformedEnvelope, keyValid := false, done := true, busy := false, fatal := s.status.fatal } }) ∧
    (∀ (salt : Octets 16) (nonce : Octets 24) (ct : List Byte) (tag : Octets 16),
      s.mem.env = salt.toList ++ nonce.toList ++ ct ++ tag.toList →
      exec .cmdDecrypt s = .next
        (match Config.kdf s.mem.pw salt with
         | none => { s with
            key := zeros 32
            salt := zeros 16
            nonce := zeros 24
            tag := zeros 16
            mem := { pw := [], aad := [], pt := [], ct := [], env := s.mem.env }
            work := Work.zero
            status := { err := .keyDerivation, keyValid := false, done := true, busy := false, fatal := true } }
         | some k =>
           if tag = aeadTag (oneTimeKey k nonce) [] ct then { s with
              key := zeros 32
              salt := salt
              nonce := nonce
              tag := tag
              mem := { pw := [], aad := [], pt := xchachaXor k nonce 1 ct, ct := ct, env := s.mem.env }
              work := Work.zero
              status := { err := .ok, keyValid := false, done := true, busy := false, fatal := s.status.fatal } }
           else { s with
              key := zeros 32
              salt := zeros 16
              nonce := zeros 24
              tag := zeros 16
              mem := { pw := [], aad := [], pt := [], ct := [], env := s.mem.env }
              work := Work.zero
              status :=
                { err := .authentication, keyValid := false, done := true, busy := false,
                  fatal := s.status.fatal } }))

/-! ## Frames and whole-machine rules -/

/-- 10_state R25, 20_memory R51: a command changes only the registers and buffers its row of the operand table lists;
every other register, every byte of every other buffer, the pending inputs and the last read keep their value, and
exactly the bytes it draws leave the random source. -/
def Obligations.CommandsChangeOnlyTheirOperands : Prop :=
  ∀ (i : Instr) (s t : State), HasStep i s → exec i s = .next t →
    (∀ l, l ∉ writesOf i ++ wipesOf i → t.loc l = s.loc l) ∧
    (∀ (b : Buf) (a : Nat), Loc.buf b ∉ writesOf i ++ wipesOf i → t.mem.readByte b a = s.mem.readByte b a) ∧
    t.rng = s.rng.drop (drawsOf i) ∧ t.inputs = s.inputs ∧ t.readData = s.readData

/-- 10_state R29 to R32: how a command leaves each flag. `DONE` is 1 and `BUSY` 0; `FATAL` is set by
`KeyDerivationError` and else kept; `KEY_VALID` is kept by `ENCODE`, `DECODE` and a refused command, says whether
`DERIVE` succeeded, and is 0 after the others. -/
def Obligations.CommandsLeaveTheFlagsAsStated : Prop :=
  ∀ (i : Instr) (s t : State), HasStep i s → exec i s = .next t →
    t.status.done = true ∧ t.status.busy = false ∧
    t.status.fatal = (s.status.fatal || t.status.err == .keyDerivation) ∧
    t.status.keyValid =
      (match i with
       | .cmdEncode => s.status.keyValid
       | .cmdDecode => s.status.keyValid
       | .cmdDerive => t.status.err == .ok
       | .cmdSeal => false
       | .cmdOpen => false
       | .cmdEncrypt => false
       | .cmdDecrypt => false)

/-- 60_exceptions R191: which codes each command can end with. -/
def Obligations.CommandsEndWithTheirOwnCodes : Prop :=
  ∀ (i : Instr) (s t : State), HasStep i s → exec i s = .next t → t.status.err ∈ errorsOf i

/-- 45_public R178, 10_state R42: what a command leaves in its operands, and the code it ends with, depend on nothing
but the operands it reads and the bytes it draws: no history, no hidden state. -/
def Obligations.CommandsDependOnlyOnTheirOperands : Prop :=
  ∀ (i : Instr) (s₁ s₂ t₁ t₂ : State), Accepts i s₁ → Accepts i s₂ → AgreeOn (readsOf i) s₁ s₂ →
    s₁.rng.take (drawsOf i) = s₂.rng.take (drawsOf i) → exec i s₁ = .next t₁ → exec i s₂ = .next t₂ →
    AgreeOn (writesOf i ++ wipesOf i) t₁ t₂ ∧ t₁.status.err = t₂.status.err

/-- 10_state R21: the key is wiped at the end of every `SEAL`, `OPEN`, `ENCRYPT` and `DECRYPT`, on every path of an
accepted command. -/
def Obligations.KeyIsWipedByItsConsumers : Prop :=
  ∀ (i : Instr) (s t : State), i ∈ [Instr.cmdSeal, .cmdOpen, .cmdEncrypt, .cmdDecrypt] → Accepts i s →
    exec i s = .next t → t.key = zeros 32 ∧ t.status.keyValid = false

/-- 40_kdu R94, 70_reset_and_hazards R226: the password is wiped by `DERIVE`, `ENCRYPT` and `DECRYPT` on every path. -/
def Obligations.PasswordIsWipedByItsConsumers : Prop :=
  ∀ (i : Instr) (s t : State), i ∈ [Instr.cmdDerive, .cmdEncrypt, .cmdDecrypt] → HasStep i s →
    exec i s = .next t → t.mem.pw = []

/-- 10_state R40: working registers are zero after every accepted command, whatever they held, and after a reset
(70_reset_and_hazards R220). That `K1` is one of them beside those R40 lists is DEDUCED from 42_poly1305 R129
(log entry 19). -/
def Obligations.WorkingRegistersAreZeroAfterACommand : Prop :=
  (∀ (i : Instr) (s t : State), Accepts i s → exec i s = .next t →
    t.work = Work.zero ∧ t.work.k1.toList = List.replicate 32 0) ∧
  ∀ (s t : State) (rest : List Input), s.inputs = .reset :: rest → step s = .next t →
    t.work = Work.zero ∧ t.work.k1.toList = List.replicate 32 0

/-- 43_aead R143, 45_public R173: an accepted `OPEN`, and a `DECRYPT`, that end with an error leave no plaintext. That
R144 speaks of an accepted `OPEN` is the model's reading (log entry 17). -/
def Obligations.FailureLeavesNoPlaintext : Prop :=
  ∀ (i : Instr) (s t : State), i ∈ [Instr.cmdOpen, .cmdDecrypt] → Accepts i s → exec i s = .next t →
    t.status.err ≠ .ok → t.mem.pt = []

/-- 60_exceptions R193, R200: every `DECRYPT` that ends with `AuthenticationError` ends alike: whatever the password
and the envelope were, the two end states differ in the envelope alone, which `DECRYPT` leaves as it was. -/
def Obligations.AuthenticationFailuresEndAlike : Prop :=
  ∀ (kdf : Kdf) (s : State) (pw env : List Byte),
    (decryptWith kdf s).status.err = .authentication →
    (decryptWith kdf { s with mem := { s.mem with pw := pw, env := env } }).status.err = .authentication →
    decryptWith kdf { s with mem := { s.mem with pw := pw, env := env } } =
      { decryptWith kdf s with mem := { (decryptWith kdf s).mem with env := env } }

/-- 10_state R32: `FATAL` is cleared only by reset: whatever is pending, a step leaves it set or is the step that takes
a reset (which of the pending inputs that is while `ENCRYPT` waits: log entry 4). -/
def Obligations.FatalIsStickyUntilReset : Prop :=
  ∀ s t : State, step s = .next t → s.status.fatal = true → t.status.fatal = true ∨ TakesReset s t

/-- 10_state R30: `KEY_VALID` goes from 0 to 1 only by a host write of `KEY` or by a `DERIVE` that succeeds. -/
def Obligations.KeyBecomesValidOnlyByLoadOrDerive : Prop :=
  ∀ s t : State, step s = .next t → s.status.keyValid = false → t.status.keyValid = true →
    (∃ v rest, s.inputs = .loadKey v :: rest ∧ t.key = v) ∨
    (∃ rest, s.inputs = .writeCmd 0x01 :: rest ∧ t.status.err = .ok ∧ Config.kdf s.mem.pw s.salt = some t.key)

/-- 10_state R30, R31, R32, R40, 20_memory R53: every step keeps the invariant. -/
def Obligations.EveryStepKeepsTheInvariant : Prop :=
  ∀ s t : State, Inv s → step s = .next t → Inv t

/-- The invariant holds at reset. -/
def Obligations.InvariantHoldsAtReset : Prop := Inv State.reset

/-! ## The host's side, status, reset -/

/-- 10_state R28, R29: the 8 bits of `STATUS`. -/
def Obligations.StatusWordLayout : Prop :=
  (∀ st : Status,
    st.word.extractLsb' 0 3 = st.err.code ∧ st.word.getLsbD 3 = st.keyValid ∧ st.word.getLsbD 4 = st.done ∧
    st.word.getLsbD 5 = st.busy ∧ st.word.getLsbD 6 = st.fatal ∧ st.word.getLsbD 7 = false) ∧
  ErrCode.ok.code = 0 ∧ ErrCode.malformedEnvelope.code = 1 ∧ ErrCode.authentication.code = 2 ∧
  ErrCode.keyDerivation.code = 3 ∧ ErrCode.command.code = 4

/-- 10_state R43, R34: what a host read answers while `BUSY = 0`; the read changes nothing of the core. That the answer
stands in `readData` is the model's choice (log entry 7). -/
def Obligations.HostReadsAnswerTheTable : Prop :=
  ∀ (s : State) (item : HostItem) (rest : List Input),
    s.inputs = .read item :: rest → s.status.busy = false →
    step s = .next { s with
      inputs := rest
      readData := some
        (match item with
         | .key => .bytes (List.replicate 32 0)
         | .salt => .bytes s.salt.toList
         | .nonce => .bytes s.nonce.toList
         | .tag => .bytes s.tag.toList
         | .buf .pw => .bytes []
         | .buf .aad => .bytes s.mem.aad
         | .buf .pt => .bytes s.mem.pt
         | .buf .ct => .bytes s.mem.ct
         | .buf .env => .bytes s.mem.env
         | .len .pw => .length 0
         | .len .aad => .length (BitVec.ofNat 64 s.mem.aad.length)
         | .len .pt => .length (BitVec.ofNat 64 s.mem.pt.length)
         | .len .ct => .length (BitVec.ofNat 64 s.mem.ct.length)
         | .len .env => .length (BitVec.ofNat 64 s.mem.env.length)
         | .cmd => .byte 0
         | .status => .byte s.status.word) }

/-- 10_state R21, R43: `KEY`, `PW` and the working registers are not readable: after any host access but a command, a
machine that differs in them alone differs in them alone, and has read the same. -/
def Obligations.HostAccessesDoNotRevealSecrets : Prop :=
  ∀ (s : State) (a : Input) (key : Octets 32) (pw : List Byte) (work : Work),
    ∃ (key' : Octets 32) (pw' : List Byte) (work' : Work),
      access (s.withSecrets key pw work) a = (access s a).withSecrets key' pw' work'

/-- 10_state R43: what a host write other than one of `CMD` does while `BUSY = 0`, and what a delivery of the random
source does (R33). A write longer than the capacity is `OverlongWriteHasNoEffect`, a write of `CMD`
`StepRunsTheDecodedCommand` and `ReservedWordIsRefused`. That a write of a length register has no effect is DEDUCED from
'read-only' (log entry 18); that the delivered bytes stand behind those already at the port is the model's choice
(log entry 3). -/
def Obligations.HostWritesTakeEffect : Prop :=
  ∀ (s : State) (rest : List Input), s.status.busy = false →
    (∀ v, s.inputs = .loadKey v :: rest →
      step s = .next { s with inputs := rest, key := v, status := { s.status with keyValid := true } }) ∧
    (∀ v, s.inputs = .loadSalt v :: rest → step s = .next { s with inputs := rest, salt := v }) ∧
    (∀ v, s.inputs = .loadNonce v :: rest → step s = .next { s with inputs := rest, nonce := v }) ∧
    (∀ v, s.inputs = .loadTag v :: rest → step s = .next { s with inputs := rest, tag := v }) ∧
    (∀ b v, s.inputs = .loadBuf b v :: rest → v.length ≤ b.capacity →
      step s = .next { s with inputs := rest, mem := s.mem.set b v }) ∧
    (∀ w, s.inputs = .writeStatus w :: rest → step s = .next { s with inputs := rest }) ∧
    (∀ b n, s.inputs = .writeLen b n :: rest → step s = .next { s with inputs := rest }) ∧
    (∀ v, s.inputs = .random v :: rest → step s = .next { s with inputs := rest, rng := s.rng ++ v })

/-- 20_memory R53: a host write longer than the buffer's capacity has no effect. -/
def Obligations.OverlongWriteHasNoEffect : Prop :=
  ∀ (s : State) (b : Buf) (v : List Byte) (rest : List Input),
    s.inputs = .loadBuf b v :: rest → b.capacity < v.length → step s = .next { s with inputs := rest }

/-- 20_memory R52: the bounds on the capacities, and `ENV_MAX = TEXT_MAX + 56`. -/
def Obligations.CapacitiesAreBounded : Prop :=
  Buf.pt.capacity ≤ 274877906880 ∧ Buf.ct.capacity = Buf.pt.capacity ∧ Buf.aad.capacity < 2 ^ 64 ∧
  Buf.env.capacity = Buf.pt.capacity + 56

/-- 10_state R43: while `BUSY = 1` a host write, to `CMD` included, has no effect, and a read of anything but `STATUS`
answers zeros or empty. No run of the atomic model reaches a state with `BUSY = 1` (log entry 13): this speaks of such
states all the same. That the answer of a read stands in `readData` is the model's choice (log entry 7). -/
def Obligations.BusyCoreIgnoresTheHost : Prop :=
  ∀ (s : State) (rest : List Input), s.status.busy = true →
    (∀ a, a.isHostWrite = true → s.inputs = a :: rest → step s = .next { s with inputs := rest }) ∧
    (∀ item, s.inputs = .read item :: rest →
      step s = .next { s with
        inputs := rest
        readData := some
          (match item with
           | .key => .bytes (List.replicate 32 0)
           | .salt => .bytes (List.replicate 16 0)
           | .nonce => .bytes (List.replicate 24 0)
           | .tag => .bytes (List.replicate 16 0)
           | .buf _ => .bytes []
           | .len _ => .length 0
           | .cmd => .byte 0
           | .status => .byte s.status.word) })

/-- 10_state R45, 70_reset_and_hazards R220: what reset leaves, from any state, and that it leaves the random source. -/
def Obligations.ResetLeavesTheTable : Prop :=
  ∀ (s : State) (rest : List Input), s.inputs = .reset :: rest →
    ∃ t, step s = .next t ∧
      t.key.toList = List.replicate 32 0 ∧ t.salt.toList = List.replicate 16 0 ∧
      t.nonce.toList = List.replicate 24 0 ∧ t.tag.toList = List.replicate 16 0 ∧ t.status.word = 0 ∧
      (∀ b, t.mem.get b = []) ∧ t.work.st.toList = List.replicate 16 0 ∧ t.work.x.toList = List.replicate 16 0 ∧
      t.work.ctr = 0 ∧ t.work.subkey.toList = List.replicate 32 0 ∧ t.work.ks.toList = List.replicate 64 0 ∧
      t.work.r = 0 ∧ t.work.s = 0 ∧ t.work.acc = 0 ∧ t.work.ctag.toList = List.replicate 16 0 ∧ t.work.diff = 0 ∧
      t.work.kduMem = [] ∧ t.rng = s.rng ∧ t.inputs = rest

/-! ## The cipher -/

/-- 41_chacha R101: the quarter round is a bijection on four-word tuples. -/
def Obligations.QuarterRoundIsBijective : Prop :=
  Function.Bijective fun p : Word × Word × Word × Word => quarterRound p.1 p.2.1 p.2.2.1 p.2.2.2

/-- 41_chacha R107, 30_encoding R82: the loop of `chacha20_xor`, byte by byte: byte `i` of the output is byte `i` of
the message against byte `i mod 64` of the block with counter `c0 + i / 64`, and there is no other byte; and the
function is its own inverse. -/
def Obligations.CipherIsTheBytewiseLoop : Prop :=
  ∀ (k : Octets 32) (c0 : Word) (n : Octets 12) (m : List Byte),
    (∀ i : Nat, (chachaXor k c0 n m)[i]? =
      m[i]?.map fun b => b ^^^ (chachaBlock k (c0 + BitVec.ofNat 32 (i / 64)) n).toList.getD (i % 64) 0) ∧
    chachaXor k c0 n (chachaXor k c0 n m) = m

/-- 41_chacha R112 (a), (b): the XChaCha20 stream keeps the length and is its own inverse. -/
def Obligations.CipherIsAnInvolution : Prop :=
  ∀ (key : Octets 32) (nonce : Octets 24) (c0 : Word) (m : List Byte),
    (xchachaXor key nonce c0 m).length = m.length ∧
    xchachaXor key nonce c0 (xchachaXor key nonce c0 m) = m

/-! ## The MAC and the comparator -/

/-- 42_poly1305 R121: the clamped multiplier is below `2^124` and has the 22 named bits zero. -/
def Obligations.ClampedMultiplierBits : Prop :=
  ∀ k1 : Octets 32, (polyR k1).toNat < 2 ^ 124 ∧
    ∀ i ∈ [28, 29, 30, 31, 60, 61, 62, 63, 92, 93, 94, 95, 124, 125, 126, 127, 32, 33, 64, 65, 96, 97],
      (polyR k1).getLsbD i = false

/-- 42_poly1305 R123: the accumulator is the polynomial in `R` modulo `2^130 - 5`. -/
def Obligations.AccumulatorIsThePolynomial : Prop :=
  ∀ (r : Nat) (msg : List Byte),
    polyAcc r msg =
      (∑ j ∈ Finset.range ((msg.length + 15) / 16),
        blockNum ((msg.drop (16 * j)).take 16) * r ^ ((msg.length + 15) / 16 - j)) % (2 ^ 130 - 5)

/-- 42_poly1305 R125 (a), (b): the tag of the empty message, and of every message under a zero multiplier, is the
second half of the one-time key. -/
def Obligations.TagWithoutMultiplier : Prop :=
  ∀ k1 : Octets 32, (poly1305 k1 []).toList = k1.toList.drop 16 ∧
    (polyR k1 = 0 → ∀ msg, (poly1305 k1 msg).toList = k1.toList.drop 16)

/-- 30_encoding R85: the six parts of the MAC input, each at its offset, where a part of `n` bytes and its padding end
at the next multiple of 16, `16 * ((n + 15) / 16)`: the AAD, zeros, the ciphertext, zeros, the two lengths in
little-endian; so it is made of full 16-byte blocks. -/
def Obligations.MacInputIsFullBlocks : Prop :=
  ∀ (aad ct m : List Byte) (a c : Nat),
    m = macData aad ct → a = 16 * ((aad.length + 15) / 16) → c = 16 * ((ct.length + 15) / 16) →
    m.length = a + c + 16 ∧
    m.take aad.length = aad ∧
    (∀ j, aad.length ≤ j → j < a → m[j]? = some 0) ∧
    (m.drop a).take ct.length = ct ∧
    (∀ j, a + ct.length ≤ j → j < a + c → m[j]? = some 0) ∧
    (aad.length < 2 ^ 64 → leNum ((m.drop (a + c)).take 8) = aad.length) ∧
    (ct.length < 2 ^ 64 → leNum (m.drop (a + c + 8)) = ct.length) ∧
    ∀ b ∈ polyBlocks m, b.length = 16

/-- 42_poly1305 R130, R131: the comparator is equality, and always runs sixteen steps. -/
def Obligations.ComparatorIsEqualityInSixteenSteps : Prop :=
  ∀ a b : Octets 16, (ctEq a b = true ↔ a = b) ∧ (ctRun a b).steps = 16

/-! ## Round trips, tampering, composites -/

/-- 44_envelope R165: `decode` and `encode` are inverse to each other. -/
def Obligations.EnvelopeCodecIsABijection : Prop :=
  (∀ (salt : Octets 16) (nonce : Octets 24) (ct : List Byte) (tag : Octets 16),
    decodeEnvelope (encodeEnvelope salt nonce ct tag) = some ⟨salt, nonce, ct, tag⟩) ∧
  (∀ e : List Byte, 56 ≤ e.length →
    ∃ f, decodeEnvelope e = some f ∧ encodeEnvelope f.salt f.nonce f.ct f.tag = e) ∧
  (∀ e : List Byte, e.length < 56 → decodeEnvelope e = none)

/-- 20_memory R58: `ENCODE` and `DECODE` are idempotent. -/
def Obligations.CodecCommandsAreIdempotent : Prop :=
  ∀ (i : Instr) (s t : State), i ∈ [Instr.cmdEncode, .cmdDecode] → exec i s = .next t → exec i t = .next t

/-- 43_aead R141: a second `SEAL` without a new key is refused, and the tag and ciphertext of the first stay. -/
def Obligations.SecondSealIsRefused : Prop :=
  ∀ s t : State, s.status.keyValid = true → exec .cmdSeal s = .next t →
    exec .cmdSeal t = .next { t with status := { t.status with err := .command } }

/-- 43_aead R147: what `seal` made, `open` gives back. -/
def Obligations.OpenOfSealIsThePlaintext : Prop :=
  ∀ (key : Octets 32) (nonce : Octets 24) (pt aad : List Byte),
    aeadOpen key nonce (aeadSeal key nonce pt aad).1 (aeadSeal key nonce pt aad).2 aad = some pt

/-- 43_aead R148 (a): a changed tag never opens. -/
def Obligations.ChangedTagNeverOpens : Prop :=
  ∀ (key : Octets 32) (nonce : Octets 24) (pt aad : List Byte) (tag : Octets 16),
    tag ≠ (aeadSeal key nonce pt aad).2 → aeadOpen key nonce (aeadSeal key nonce pt aad).1 tag aad = none

/-- 43_aead R148 (b) under its premise `tags_differ`: a changed ciphertext or AAD does not open unless the two tags
coincide. -/
def Obligations.ChangedCiphertextNeedsATagCollision : Prop :=
  ∀ (key : Octets 32) (nonce : Octets 24) (pt aad ct' aad' : List Byte),
    TagsDiffer (oneTimeKey key nonce) (macData aad (aeadSeal key nonce pt aad).1) (macData aad' ct') →
    aeadOpen key nonce ct' (aeadSeal key nonce pt aad).2 aad' = none

/-- 70_reset_and_hazards R224, 41_chacha R112 (d): under one key and nonce two ciphertexts of equal length differ exactly
as the two plaintexts do: the keystream does not depend on the message. -/
def Obligations.NonceReuseExposesThePlaintexts : Prop :=
  ∀ (key : Octets 32) (nonce : Octets 24) (c0 : Word) (m₁ m₂ : List Byte), m₁.length = m₂.length →
    xorBytes (xchachaXor key nonce c0 m₁) (xchachaXor key nonce c0 m₂) = xorBytes m₁ m₂

/-- 43_aead R141, R143, R147 on the machine: `SEAL`, the same key loaded again, any plaintext buffer, then `OPEN`: the
plaintext is back and the code is `OK`. -/
def Obligations.SealThenOpenRestoresThePlaintext : Prop :=
  ∀ (s t : State) (junk : List Byte), s.status.keyValid = true → exec .cmdSeal s = .next t →
    ∃ u, exec .cmdOpen ((t.loadKey s.key).setBuf .pt junk) = .next u ∧
      u.mem.pt = s.mem.pt ∧ u.status.err = .ok ∧ u.key = zeros 32

/-- 45_public R176 (a), for every `KDF`: `ENCRYPT`, the password loaded again, any plaintext buffer, then `DECRYPT`:
the plaintext is back and the code is `OK`. -/
def Obligations.EncryptThenDecryptRestoresThePlaintext : Prop :=
  ∀ (kdf : Kdf) (s : State) (junk : List Byte), 40 ≤ s.rng.length →
    (encryptWith kdf s).status.err = .ok →
    (decryptWith kdf (((encryptWith kdf s).setBuf .pw s.mem.pw).setBuf .pt junk)).mem.pt = s.mem.pt ∧
    (decryptWith kdf (((encryptWith kdf s).setBuf .pw s.mem.pw).setBuf .pt junk)).status.err = .ok

/-- 40_kdu R93, 45_public R176 (a) under the premise `KDF_never_fails`: on every draw `ENCRYPT` ends with `OK` and
`DECRYPT` with the same password gives the plaintext back. -/
def Obligations.RoundTripOfAHealthyBuild : Prop :=
  ∀ kdf : Kdf, KdfNeverFails kdf → ∀ s : State, 40 ≤ s.rng.length →
    (encryptWith kdf s).status.err = .ok ∧
    (decryptWith kdf ((encryptWith kdf s).setBuf .pw s.mem.pw)).status.err = .ok ∧
    (decryptWith kdf ((encryptWith kdf s).setBuf .pw s.mem.pw)).mem.pt = s.mem.pt

/-- 45_public R176 (b), the tag region, for every `KDF`: an envelope `ENCRYPT` made, its tag bytes changed in any way,
ends `DECRYPT` with `AuthenticationError` and no plaintext. -/
def Obligations.ChangedTagRegionNeverDecrypts : Prop :=
  ∀ (kdf : Kdf) (s : State) (tag : Octets 16), 40 ≤ s.rng.length →
    (encryptWith kdf s).status.err = .ok → tag ≠ (encryptWith kdf s).tag →
    ∀ u, u = decryptWith kdf (((encryptWith kdf s).setBuf .pw s.mem.pw).setBuf .env
        ((encryptWith kdf s).mem.env.take ((encryptWith kdf s).mem.env.length - 16) ++ tag.toList)) →
      u.status.err = .authentication ∧ u.mem.pt = []

/-- 30_encoding R87, for every `KDF`: `ENCRYPT` is `AAD <- empty`, the draw into `SALT` and `NONCE`, `DERIVE`, `SEAL`,
`ENCODE`; when `DERIVE` fails, its end state with the outputs of all steps cleared. -/
def Obligations.EncryptIsTheComposite : Prop :=
  ∀ (kdf : Kdf) (s d : State) (salt : Octets 16) (nonce : Octets 24) (rest : List Byte),
    s.rng = salt.toList ++ nonce.toList ++ rest →
    d = deriveWith kdf { s with salt := salt, nonce := nonce, rng := rest, mem := { s.mem with aad := [] } } →
    (d.status.err = .ok → encryptWith kdf s = encodeAccepted (sealAccepted d)) ∧
    (d.status.err ≠ .ok → encryptWith kdf s = { d with
      salt := zeros 16
      nonce := zeros 24
      tag := zeros 16
      mem := { d.mem with ct := [], env := [] } })

/-- 30_encoding R87, for every `KDF`: `DECRYPT` is `AAD <- empty`, `DECODE`, `DERIVE`, `OPEN`, stopping on the first
error; on an error the outputs of all steps are cleared and key and password wiped. -/
def Obligations.DecryptIsTheComposite : Prop :=
  ∀ (kdf : Kdf) (s a d : State),
    a = decodeAccepted { s with mem := { s.mem with aad := [] } } → d = deriveWith kdf a →
    (a.status.err ≠ .ok → decryptWith kdf s = { a with
      key := zeros 32
      status := { a.status with keyValid := false }
      mem := { a.mem with pw := [], pt := [] } }) ∧
    (a.status.err = .ok → d.status.err ≠ .ok → decryptWith kdf s = { d with
      salt := zeros 16
      nonce := zeros 24
      tag := zeros 16
      mem := { d.mem with ct := [], pt := [] } }) ∧
    (a.status.err = .ok → d.status.err = .ok → (openAccepted d).status.err = .ok →
      decryptWith kdf s = openAccepted d) ∧
    (a.status.err = .ok → d.status.err = .ok → (openAccepted d).status.err ≠ .ok →
      decryptWith kdf s = { openAccepted d with
        salt := zeros 16
        nonce := zeros 24
        tag := zeros 16
        mem := { (openAccepted d).mem with ct := [] } })

/-- The machine runs `DERIVE`, `ENCRYPT` and `DECRYPT` at the core's one `KDF` (40_kdu R92): this carries the
statements made for every `kdf` to `exec`. -/
def Obligations.CommandsRunTheConfiguredKdf : Prop :=
  ∀ s : State, exec .cmdDerive s = .next (deriveWith Config.kdf s) ∧
    exec .cmdEncrypt s = .next (encryptWith Config.kdf s) ∧ exec .cmdDecrypt s = .next (decryptWith Config.kdf s)
end

