-- ==== Sys2Proof/Laws/Bytes.lean ====
section
/-! SUPPORT. Byte sequences: slices, little-endian numbers, exclusive or, and the lengths of the cipher's outputs. -/

namespace Sys2Proof.Machine

@[simp] theorem toList_zeros (n : Nat) : (zeros n).toList = List.replicate n 0 := by simp [zeros]

theorem octets_ext {n : Nat} {a b : Octets n} (h : a.toList = b.toList) : a = b :=
  Vector.toList_inj.mp h

theorem getElem?_toList_octets (n : Nat) (l : List Byte) (i : Nat) :
    (octets n l).toList[i]? = if i < n then some (l.getD i 0) else none := by
  by_cases h : i < n <;> simp [octets, h]

/-- On a sequence long enough, `octets` is its first bytes. -/
theorem toList_octets {n : Nat} {l : List Byte} (h : n ≤ l.length) : (octets n l).toList = l.take n := by
  apply List.ext_getElem?
  intro i
  rw [getElem?_toList_octets, List.getElem?_take]
  split
  · rename_i hi
    simp [List.getD_eq_getElem?_getD, List.getElem?_eq_getElem (Nat.lt_of_lt_of_le hi h)]
  · rfl

/-- Slicing a fixed-length field off the front of a sequence gives the field. -/
@[simp] theorem octets_append {n : Nat} (v : Octets n) (l : List Byte) : octets n (v.toList ++ l) = v :=
  octets_ext (by rw [toList_octets (by simp), List.take_left' (by simp)])

@[simp] theorem octets_toList {n : Nat} (v : Octets n) : octets n v.toList = v := by
  simpa using octets_append v []

@[simp] theorem length_toLe (n k : Nat) : (toLe n k).length = k := by
  induction k generalizing n with
  | zero => rfl
  | succ k ih => simp [toLe, ih]

theorem leNum_lt (l : List Byte) : leNum l < 2 ^ (8 * l.length) := by
  induction l with
  | nil => simp [leNum]
  | cons b bs ih =>
    have hb := b.isLt
    have : 2 ^ (8 * (b :: bs).length) = 256 * 2 ^ (8 * bs.length) := by
      rw [List.length_cons, Nat.mul_add, Nat.pow_add]; ring
    simp only [leNum]
    omega

/-- `to_le` undoes `le_num` (00_scope R13). -/
theorem toLe_leNum (l : List Byte) : toLe (leNum l) l.length = l := by
  induction l with
  | nil => rfl
  | cons b bs ih =>
    have hd : (b.toNat + 256 * leNum bs) / 256 = leNum bs := by have := b.isLt; omega
    have hm : BitVec.ofNat 8 (b.toNat + 256 * leNum bs) = b := by
      apply BitVec.eq_of_toNat_eq; have := b.isLt; simp; omega
    simp only [leNum, List.length_cons, toLe, hd, ih, hm]

/-- `le_num` undoes `to_le`, which keeps the low `k` bytes (00_scope R13). -/
theorem leNum_toLe (n k : Nat) : leNum (toLe n k) = n % 2 ^ (8 * k) := by
  induction k generalizing n with
  | zero => simp [toLe, leNum, Nat.mod_one]
  | succ k ih =>
    have : 2 ^ (8 * (k + 1)) = 256 * 2 ^ (8 * k) := by rw [Nat.mul_add, Nat.pow_add]; ring
    rw [this, Nat.mod_mul]
    simp [toLe, leNum, ih]

@[simp] theorem length_xorBytes (x y : List Byte) : (xorBytes x y).length = min x.length y.length := by
  simp [xorBytes]

/-- `(x ^ y) ^ y = x`, as far as `y` reaches. -/
theorem xorBytes_xorBytes {x y : List Byte} (h : x.length ≤ y.length) : xorBytes (xorBytes x y) y = x := by
  induction x generalizing y with
  | nil => simp [xorBytes]
  | cons a x ih =>
    cases y with
    | nil => simp at h
    | cons b y => simpa [xorBytes, BitVec.xor_assoc] using ih (y := y) (by simpa using h)

@[simp] theorem length_keystream (k : Octets 32) (c0 : Word) (n : Octets 12) (nb : Nat) :
    (keystream k c0 n nb).length = 64 * nb := by
  simp [keystream, List.length_flatMap, Nat.mul_comm]

/-- The keystream of one more block is the block at its end (41_chacha R106). -/
theorem keystream_succ (k : Octets 32) (c0 : Word) (n : Octets 12) (nb : Nat) :
    keystream k c0 n (nb + 1) = keystream k c0 n nb ++ (chachaBlock k (c0 + BitVec.ofNat 32 nb) n).toList := by
  simp [keystream, List.range_succ]

/-- `len(chacha20_xor(k, c0, n, m)) = len(m)` (41_chacha R107). -/
@[simp] theorem length_chachaXor (k : Octets 32) (c0 : Word) (n : Octets 12) (m : List Byte) :
    (chachaXor k c0 n m).length = m.length := by
  simp only [chachaXor, length_xorBytes, length_keystream]
  omega

@[simp] theorem length_pad16 (x : List Byte) : (pad16 x).length = (16 - x.length % 16) % 16 := by simp [pad16]

@[simp] theorem length_le64 (n : Nat) : (le64 n).length = 8 := by simp [le64]

end Sys2Proof.Machine
end

