-- ==== Sys2Proof/Laws/State.lean ====
section
/-! SUPPORT. What each shared update does to each field: one lemma per field, true by definition. -/

namespace Sys2Proof.Machine

section Buffers
variable (m : Memory) (v : List Byte)

@[simp] theorem Memory.set_pw : m.set .pw v = { m with pw := v } := rfl
@[simp] theorem Memory.set_aad : m.set .aad v = { m with aad := v } := rfl
@[simp] theorem Memory.set_pt : m.set .pt v = { m with pt := v } := rfl
@[simp] theorem Memory.set_ct : m.set .ct v = { m with ct := v } := rfl
@[simp] theorem Memory.set_env : m.set .env v = { m with env := v } := rfl

@[simp] theorem Memory.get_pw : m.get .pw = m.pw := rfl
@[simp] theorem Memory.get_aad : m.get .aad = m.aad := rfl
@[simp] theorem Memory.get_pt : m.get .pt = m.pt := rfl
@[simp] theorem Memory.get_ct : m.get .ct = m.ct := rfl
@[simp] theorem Memory.get_env : m.get .env = m.env := rfl

end Buffers

section Status
variable (st : Status)

@[simp] theorem Status.run_err (e : ErrCode) : (st.run e).err = e := rfl
@[simp] theorem Status.run_keyValid (e : ErrCode) : (st.run e).keyValid = st.keyValid := rfl
@[simp] theorem Status.run_done (e : ErrCode) : (st.run e).done = true := rfl
@[simp] theorem Status.run_busy (e : ErrCode) : (st.run e).busy = false := rfl
@[simp] theorem Status.run_fatal (e : ErrCode) : (st.run e).fatal = (st.fatal || e == .keyDerivation) := rfl
@[simp] theorem Status.setKeyValid_err (v : Bool) : (st.setKeyValid v).err = st.err := rfl
@[simp] theorem Status.setKeyValid_keyValid (v : Bool) : (st.setKeyValid v).keyValid = v := rfl
@[simp] theorem Status.setKeyValid_done (v : Bool) : (st.setKeyValid v).done = st.done := rfl
@[simp] theorem Status.setKeyValid_busy (v : Bool) : (st.setKeyValid v).busy = st.busy := rfl
@[simp] theorem Status.setKeyValid_fatal (v : Bool) : (st.setKeyValid v).fatal = st.fatal := rfl

/-- Acceptance and completion together are completion: acceptance leaves no trace (10_state R31). -/
theorem Status.run_eq_complete (e : ErrCode) : st.run e = st.complete e := rfl

end Status

section Updates
variable (s : State)

@[simp] theorem State.setBuf_key (b : Buf) (v : List Byte) : (s.setBuf b v).key = s.key := rfl
@[simp] theorem State.setBuf_salt (b : Buf) (v : List Byte) : (s.setBuf b v).salt = s.salt := rfl
@[simp] theorem State.setBuf_nonce (b : Buf) (v : List Byte) : (s.setBuf b v).nonce = s.nonce := rfl
@[simp] theorem State.setBuf_tag (b : Buf) (v : List Byte) : (s.setBuf b v).tag = s.tag := rfl
@[simp] theorem State.setBuf_status (b : Buf) (v : List Byte) : (s.setBuf b v).status = s.status := rfl
@[simp] theorem State.setBuf_mem (b : Buf) (v : List Byte) : (s.setBuf b v).mem = s.mem.set b v := rfl
@[simp] theorem State.setBuf_work (b : Buf) (v : List Byte) : (s.setBuf b v).work = s.work := rfl
@[simp] theorem State.setBuf_rng (b : Buf) (v : List Byte) : (s.setBuf b v).rng = s.rng := rfl
@[simp] theorem State.setBuf_inputs (b : Buf) (v : List Byte) : (s.setBuf b v).inputs = s.inputs := rfl
@[simp] theorem State.setBuf_readData (b : Buf) (v : List Byte) : (s.setBuf b v).readData = s.readData := rfl

@[simp] theorem State.wipeBuf_key (b : Buf) : (s.wipeBuf b).key = s.key := rfl
@[simp] theorem State.wipeBuf_salt (b : Buf) : (s.wipeBuf b).salt = s.salt := rfl
@[simp] theorem State.wipeBuf_nonce (b : Buf) : (s.wipeBuf b).nonce = s.nonce := rfl
@[simp] theorem State.wipeBuf_tag (b : Buf) : (s.wipeBuf b).tag = s.tag := rfl
@[simp] theorem State.wipeBuf_status (b : Buf) : (s.wipeBuf b).status = s.status := rfl
@[simp] theorem State.wipeBuf_mem (b : Buf) : (s.wipeBuf b).mem = s.mem.set b [] := rfl
@[simp] theorem State.wipeBuf_work (b : Buf) : (s.wipeBuf b).work = s.work := rfl
@[simp] theorem State.wipeBuf_rng (b : Buf) : (s.wipeBuf b).rng = s.rng := rfl
@[simp] theorem State.wipeBuf_inputs (b : Buf) : (s.wipeBuf b).inputs = s.inputs := rfl
@[simp] theorem State.wipeBuf_readData (b : Buf) : (s.wipeBuf b).readData = s.readData := rfl

@[simp] theorem State.loadKey_key (k : Octets 32) : (s.loadKey k).key = k := rfl
@[simp] theorem State.loadKey_salt (k : Octets 32) : (s.loadKey k).salt = s.salt := rfl
@[simp] theorem State.loadKey_nonce (k : Octets 32) : (s.loadKey k).nonce = s.nonce := rfl
@[simp] theorem State.loadKey_tag (k : Octets 32) : (s.loadKey k).tag = s.tag := rfl
@[simp] theorem State.loadKey_status (k : Octets 32) : (s.loadKey k).status = s.status.setKeyValid true := rfl
@[simp] theorem State.loadKey_mem (k : Octets 32) : (s.loadKey k).mem = s.mem := rfl
@[simp] theorem State.loadKey_work (k : Octets 32) : (s.loadKey k).work = s.work := rfl
@[simp] theorem State.loadKey_rng (k : Octets 32) : (s.loadKey k).rng = s.rng := rfl
@[simp] theorem State.loadKey_inputs (k : Octets 32) : (s.loadKey k).inputs = s.inputs := rfl
@[simp] theorem State.loadKey_readData (k : Octets 32) : (s.loadKey k).readData = s.readData := rfl

@[simp] theorem State.wipeKey_key : s.wipeKey.key = zeros 32 := rfl
@[simp] theorem State.wipeKey_salt : s.wipeKey.salt = s.salt := rfl
@[simp] theorem State.wipeKey_nonce : s.wipeKey.nonce = s.nonce := rfl
@[simp] theorem State.wipeKey_tag : s.wipeKey.tag = s.tag := rfl
@[simp] theorem State.wipeKey_status : s.wipeKey.status = s.status.setKeyValid false := rfl
@[simp] theorem State.wipeKey_mem : s.wipeKey.mem = s.mem := rfl
@[simp] theorem State.wipeKey_work : s.wipeKey.work = s.work := rfl
@[simp] theorem State.wipeKey_rng : s.wipeKey.rng = s.rng := rfl
@[simp] theorem State.wipeKey_inputs : s.wipeKey.inputs = s.inputs := rfl
@[simp] theorem State.wipeKey_readData : s.wipeKey.readData = s.readData := rfl

@[simp] theorem State.setSalt_key (v : Octets 16) : (s.setSalt v).key = s.key := rfl
@[simp] theorem State.setSalt_salt (v : Octets 16) : (s.setSalt v).salt = v := rfl
@[simp] theorem State.setSalt_nonce (v : Octets 16) : (s.setSalt v).nonce = s.nonce := rfl
@[simp] theorem State.setSalt_tag (v : Octets 16) : (s.setSalt v).tag = s.tag := rfl
@[simp] theorem State.setSalt_status (v : Octets 16) : (s.setSalt v).status = s.status := rfl
@[simp] theorem State.setSalt_mem (v : Octets 16) : (s.setSalt v).mem = s.mem := rfl
@[simp] theorem State.setSalt_work (v : Octets 16) : (s.setSalt v).work = s.work := rfl
@[simp] theorem State.setSalt_rng (v : Octets 16) : (s.setSalt v).rng = s.rng := rfl
@[simp] theorem State.setSalt_inputs (v : Octets 16) : (s.setSalt v).inputs = s.inputs := rfl
@[simp] theorem State.setSalt_readData (v : Octets 16) : (s.setSalt v).readData = s.readData := rfl

@[simp] theorem State.setNonce_key (v : Octets 24) : (s.setNonce v).key = s.key := rfl
@[simp] theorem State.setNonce_salt (v : Octets 24) : (s.setNonce v).salt = s.salt := rfl
@[simp] theorem State.setNonce_nonce (v : Octets 24) : (s.setNonce v).nonce = v := rfl
@[simp] theorem State.setNonce_tag (v : Octets 24) : (s.setNonce v).tag = s.tag := rfl
@[simp] theorem State.setNonce_status (v : Octets 24) : (s.setNonce v).status = s.status := rfl
@[simp] theorem State.setNonce_mem (v : Octets 24) : (s.setNonce v).mem = s.mem := rfl
@[simp] theorem State.setNonce_work (v : Octets 24) : (s.setNonce v).work = s.work := rfl
@[simp] theorem State.setNonce_rng (v : Octets 24) : (s.setNonce v).rng = s.rng := rfl
@[simp] theorem State.setNonce_inputs (v : Octets 24) : (s.setNonce v).inputs = s.inputs := rfl
@[simp] theorem State.setNonce_readData (v : Octets 24) : (s.setNonce v).readData = s.readData := rfl

@[simp] theorem State.setTag_key (v : Octets 16) : (s.setTag v).key = s.key := rfl
@[simp] theorem State.setTag_salt (v : Octets 16) : (s.setTag v).salt = s.salt := rfl
@[simp] theorem State.setTag_nonce (v : Octets 16) : (s.setTag v).nonce = s.nonce := rfl
@[simp] theorem State.setTag_tag (v : Octets 16) : (s.setTag v).tag = v := rfl
@[simp] theorem State.setTag_status (v : Octets 16) : (s.setTag v).status = s.status := rfl
@[simp] theorem State.setTag_mem (v : Octets 16) : (s.setTag v).mem = s.mem := rfl
@[simp] theorem State.setTag_work (v : Octets 16) : (s.setTag v).work = s.work := rfl
@[simp] theorem State.setTag_rng (v : Octets 16) : (s.setTag v).rng = s.rng := rfl
@[simp] theorem State.setTag_inputs (v : Octets 16) : (s.setTag v).inputs = s.inputs := rfl
@[simp] theorem State.setTag_readData (v : Octets 16) : (s.setTag v).readData = s.readData := rfl

@[simp] theorem State.clearFields_key : s.clearFields.key = s.key := rfl
@[simp] theorem State.clearFields_salt : s.clearFields.salt = zeros 16 := rfl
@[simp] theorem State.clearFields_nonce : s.clearFields.nonce = zeros 24 := rfl
@[simp] theorem State.clearFields_tag : s.clearFields.tag = zeros 16 := rfl
@[simp] theorem State.clearFields_status : s.clearFields.status = s.status := rfl
@[simp] theorem State.clearFields_mem : s.clearFields.mem = s.mem.set .ct [] := rfl
@[simp] theorem State.clearFields_work : s.clearFields.work = s.work := rfl
@[simp] theorem State.clearFields_rng : s.clearFields.rng = s.rng := rfl
@[simp] theorem State.clearFields_inputs : s.clearFields.inputs = s.inputs := rfl
@[simp] theorem State.clearFields_readData : s.clearFields.readData = s.readData := rfl

@[simp] theorem State.dropRandom_key (n : Nat) : (s.dropRandom n).key = s.key := rfl
@[simp] theorem State.dropRandom_salt (n : Nat) : (s.dropRandom n).salt = s.salt := rfl
@[simp] theorem State.dropRandom_nonce (n : Nat) : (s.dropRandom n).nonce = s.nonce := rfl
@[simp] theorem State.dropRandom_tag (n : Nat) : (s.dropRandom n).tag = s.tag := rfl
@[simp] theorem State.dropRandom_status (n : Nat) : (s.dropRandom n).status = s.status := rfl
@[simp] theorem State.dropRandom_mem (n : Nat) : (s.dropRandom n).mem = s.mem := rfl
@[simp] theorem State.dropRandom_work (n : Nat) : (s.dropRandom n).work = s.work := rfl
@[simp] theorem State.dropRandom_rng (n : Nat) : (s.dropRandom n).rng = s.rng.drop n := rfl
@[simp] theorem State.dropRandom_inputs (n : Nat) : (s.dropRandom n).inputs = s.inputs := rfl
@[simp] theorem State.dropRandom_readData (n : Nat) : (s.dropRandom n).readData = s.readData := rfl

@[simp] theorem State.finish_key (e : ErrCode) : (s.finish e).key = s.key := rfl
@[simp] theorem State.finish_salt (e : ErrCode) : (s.finish e).salt = s.salt := rfl
@[simp] theorem State.finish_nonce (e : ErrCode) : (s.finish e).nonce = s.nonce := rfl
@[simp] theorem State.finish_tag (e : ErrCode) : (s.finish e).tag = s.tag := rfl
@[simp] theorem State.finish_status (e : ErrCode) : (s.finish e).status = s.status.run e := rfl
@[simp] theorem State.finish_mem (e : ErrCode) : (s.finish e).mem = s.mem := rfl
@[simp] theorem State.finish_work (e : ErrCode) : (s.finish e).work = Work.zero := rfl
@[simp] theorem State.finish_rng (e : ErrCode) : (s.finish e).rng = s.rng := rfl
@[simp] theorem State.finish_inputs (e : ErrCode) : (s.finish e).inputs = s.inputs := rfl
@[simp] theorem State.finish_readData (e : ErrCode) : (s.finish e).readData = s.readData := rfl

@[simp] theorem State.raise_key (e : ErrCode) : (s.raise e).key = s.key := rfl
@[simp] theorem State.raise_salt (e : ErrCode) : (s.raise e).salt = s.salt := rfl
@[simp] theorem State.raise_nonce (e : ErrCode) : (s.raise e).nonce = s.nonce := rfl
@[simp] theorem State.raise_tag (e : ErrCode) : (s.raise e).tag = s.tag := rfl
@[simp] theorem State.raise_status (e : ErrCode) : (s.raise e).status = s.status.run e := rfl
@[simp] theorem State.raise_mem (e : ErrCode) : (s.raise e).mem = s.mem := rfl
@[simp] theorem State.raise_work (e : ErrCode) : (s.raise e).work = Work.zero := rfl
@[simp] theorem State.raise_rng (e : ErrCode) : (s.raise e).rng = s.rng := rfl
@[simp] theorem State.raise_inputs (e : ErrCode) : (s.raise e).inputs = s.inputs := rfl
@[simp] theorem State.raise_readData (e : ErrCode) : (s.raise e).readData = s.readData := rfl

@[simp] theorem State.refuse_key : s.refuse.key = s.key := rfl
@[simp] theorem State.refuse_salt : s.refuse.salt = s.salt := rfl
@[simp] theorem State.refuse_nonce : s.refuse.nonce = s.nonce := rfl
@[simp] theorem State.refuse_tag : s.refuse.tag = s.tag := rfl
@[simp] theorem State.refuse_status : s.refuse.status = s.status.run .command := rfl
@[simp] theorem State.refuse_mem : s.refuse.mem = s.mem := rfl
@[simp] theorem State.refuse_work : s.refuse.work = s.work := rfl
@[simp] theorem State.refuse_rng : s.refuse.rng = s.rng := rfl
@[simp] theorem State.refuse_inputs : s.refuse.inputs = s.inputs := rfl
@[simp] theorem State.refuse_readData : s.refuse.readData = s.readData := rfl

@[simp] theorem State.resetCore_key : s.resetCore.key = zeros 32 := rfl
@[simp] theorem State.resetCore_salt : s.resetCore.salt = zeros 16 := rfl
@[simp] theorem State.resetCore_nonce : s.resetCore.nonce = zeros 24 := rfl
@[simp] theorem State.resetCore_tag : s.resetCore.tag = zeros 16 := rfl
@[simp] theorem State.resetCore_status : s.resetCore.status = Status.reset := rfl
@[simp] theorem State.resetCore_mem : s.resetCore.mem = Memory.empty := rfl
@[simp] theorem State.resetCore_work : s.resetCore.work = Work.zero := rfl
@[simp] theorem State.resetCore_rng : s.resetCore.rng = s.rng := rfl
@[simp] theorem State.resetCore_inputs : s.resetCore.inputs = s.inputs := rfl
@[simp] theorem State.resetCore_readData : s.resetCore.readData = s.readData := rfl

@[simp] theorem State.setFields_key (f : EnvelopeFields) : (s.setFields f).key = s.key := rfl
@[simp] theorem State.setFields_salt (f : EnvelopeFields) : (s.setFields f).salt = f.salt := rfl
@[simp] theorem State.setFields_nonce (f : EnvelopeFields) : (s.setFields f).nonce = f.nonce := rfl
@[simp] theorem State.setFields_tag (f : EnvelopeFields) : (s.setFields f).tag = f.tag := rfl
@[simp] theorem State.setFields_status (f : EnvelopeFields) : (s.setFields f).status = s.status := rfl
@[simp] theorem State.setFields_mem (f : EnvelopeFields) : (s.setFields f).mem = s.mem.set .ct f.ct := rfl
@[simp] theorem State.setFields_work (f : EnvelopeFields) : (s.setFields f).work = s.work := rfl
@[simp] theorem State.setFields_rng (f : EnvelopeFields) : (s.setFields f).rng = s.rng := rfl
@[simp] theorem State.setFields_inputs (f : EnvelopeFields) : (s.setFields f).inputs = s.inputs := rfl
@[simp] theorem State.setFields_readData (f : EnvelopeFields) : (s.setFields f).readData = s.readData := rfl

@[simp] theorem State.clearOutputs_key : s.clearOutputs.key = s.key := rfl
@[simp] theorem State.clearOutputs_salt : s.clearOutputs.salt = zeros 16 := rfl
@[simp] theorem State.clearOutputs_nonce : s.clearOutputs.nonce = zeros 24 := rfl
@[simp] theorem State.clearOutputs_tag : s.clearOutputs.tag = zeros 16 := rfl
@[simp] theorem State.clearOutputs_status : s.clearOutputs.status = s.status := rfl
@[simp] theorem State.clearOutputs_mem : s.clearOutputs.mem = (s.mem.set .ct []).set .pt [] := rfl
@[simp] theorem State.clearOutputs_work : s.clearOutputs.work = s.work := rfl
@[simp] theorem State.clearOutputs_rng : s.clearOutputs.rng = s.rng := rfl
@[simp] theorem State.clearOutputs_inputs : s.clearOutputs.inputs = s.inputs := rfl
@[simp] theorem State.clearOutputs_readData : s.clearOutputs.readData = s.readData := rfl

end Updates

end Sys2Proof.Machine
end

