-- ==== Sys2Proof/Laws/Memory.lean ====
section
/-! SUPPORT. The buffers: reads after writes, and that every memory operation keeps their contents within capacity. -/

namespace Sys2Proof.Machine

/-- A buffer read after a buffer write: the written content in place, every other buffer as it was. -/
theorem Memory.get_set (m : Memory) (b b' : Buf) (v : List Byte) :
    (m.set b v).get b' = if b' = b then v else m.get b' := by
  cases b <;> cases b' <;> rfl

@[simp] theorem Memory.get_set_same (m : Memory) (b : Buf) (v : List Byte) : (m.set b v).get b = v := by
  cases b <;> rfl

/-- A write of one buffer leaves every byte of every other buffer (20_memory R50). -/
theorem Memory.readByte_set_of_ne (m : Memory) {b b' : Buf} (v : List Byte) (a : Nat) (h : b' ≠ b) :
    (m.set b v).readByte b' a = m.readByte b' a := by
  simp [Memory.readByte, Memory.get_set, h]

theorem Memory.wf_iff (m : Memory) : m.wf ↔ ∀ b, (m.get b).length ≤ b.capacity := by
  constructor
  · rintro ⟨h1, h2, h3, h4, h5⟩ b
    cases b <;> assumption
  · intro h
    exact ⟨h .pw, h .aad, h .pt, h .ct, h .env⟩

/-- Writing a content within capacity keeps the memory well formed (20_memory R53). -/
theorem Memory.wf_set {m : Memory} {b : Buf} {v : List Byte} (h : m.wf) (hv : v.length ≤ b.capacity) :
    (m.set b v).wf := by
  rw [Memory.wf_iff] at *
  intro b'
  rw [Memory.get_set]
  split
  · rename_i e; rw [e]; exact hv
  · exact h b'

/-- Wiping keeps the memory well formed. -/
theorem Memory.wf_wipe {m : Memory} {b : Buf} (h : m.wf) : (m.set b []).wf := Memory.wf_set h (Nat.zero_le _)

theorem Memory.wf_empty : Memory.empty.wf := by simp [Memory.wf, Memory.empty]

theorem Memory.wf_reset : State.reset.mem.wf := Memory.wf_empty

/-- A host write, admitted or not, keeps the memory well formed (20_memory R53). -/
theorem State.wf_hostLoad {s : State} {b : Buf} {v : List Byte} (h : s.mem.wf) : (s.hostLoad b v).mem.wf := by
  unfold State.hostLoad
  split
  · exact Memory.wf_set h ‹_›
  · exact h

/-- The cells of a buffer are in rising order of address: the canonical form. -/
theorem Memory.cells_rising (m : Memory) (b : Buf) : (m.cells b).Pairwise fun x y => x.1 < y.1 := by
  simp only [Memory.cells, List.pairwise_map]
  rw [List.pairwise_iff_getElem]
  intro i j hi hj hij
  simpa using hij

/-- The cells of a buffer are its bytes. -/
theorem Memory.mem_cells (m : Memory) (b : Buf) (a : Nat) (v : Byte) :
    (a, v) ∈ m.cells b ↔ m.readByte b a = some v := by
  simp [Memory.cells, Memory.readByte, List.mem_zipIdx_iff_getElem?]

end Sys2Proof.Machine
end

