-- ==== Sys2Proof/Laws/Ops.lean ====
section
/-! SUPPORT. What each shared operation can do, said once: decoding, waiting, fetching, the step, and the two commands
with several endings. -/

namespace Sys2Proof.Machine

/-- A word decodes to a command exactly when it is that command's word. -/
theorem decodeWord_eq_ok_iff (w : BitVec 8) (i : Instr) : decodeWord w = .ok i ↔ w = encodeWord i := by
  revert w i
  have h : ∀ w : BitVec 8, ∀ i ∈ [Instr.cmdDerive, .cmdSeal, .cmdOpen, .cmdEncode, .cmdDecode, .cmdEncrypt, .cmdDecrypt],
      decodeWord w = .ok i ↔ w = encodeWord i := by decide +kernel
  intro w i
  exact h w i (by cases i <;> simp)

/-- What `splitOutside` finds: the first input that is not the host's. -/
theorem splitOutside_some {l before after : List Input} {x : Input} (h : splitOutside l = some (before, x, after)) :
    l = before ++ x :: after ∧ (∀ a ∈ before, a.isOutside = false) ∧ ((∃ v, x = .random v) ∨ x = .reset) := by
  induction l generalizing before x after with
  | nil => simp [splitOutside] at h
  | cons a rest ih =>
    cases a with
    | random v =>
      simp only [splitOutside, Option.some.injEq, Prod.mk.injEq] at h
      obtain ⟨rfl, rfl, rfl⟩ := h
      simp
    | reset =>
      simp only [splitOutside, Option.some.injEq, Prod.mk.injEq] at h
      obtain ⟨rfl, rfl, rfl⟩ := h
      simp
    | _ =>
      simp only [splitOutside] at h
      split at h
      · rename_i b' x' a' hs
        simp only [Option.some.injEq, Prod.mk.injEq] at h
        obtain ⟨rfl, rfl, rfl⟩ := h
        obtain ⟨h1, h2, h3⟩ := ih hs
        exact ⟨by rw [h1]; rfl, by simpa [Input.isOutside] using h2, h3⟩
      · exact absurd h (by simp)

theorem splitOutside_append {before after : List Input} {x : Input} (hb : ∀ a ∈ before, a.isOutside = false)
    (hx : x.isOutside = true) : splitOutside (before ++ x :: after) = some (before, x, after) := by
  induction before with
  | nil => cases x <;> simp_all [splitOutside, Input.isOutside]
  | cons a rest ih =>
    have ih' := ih fun y hy => hb y (List.mem_cons_of_mem _ hy)
    have ha := hb a List.mem_cons_self
    cases a <;> simp_all [splitOutside, Input.isOutside]

theorem splitOutside_none {l : List Input} (h : ∀ a ∈ l, a.isOutside = false) : splitOutside l = none := by
  induction l with
  | nil => rfl
  | cons a rest ih =>
    have ih' := ih fun y hy => h y (List.mem_cons_of_mem _ hy)
    have ha := h a List.mem_cons_self
    cases a <;> simp_all [splitOutside, Input.isOutside]

/-- Everything a waiting `ENCRYPT` can do: take a delivery, be ended by a reset, or stay (log entry 4). -/
theorem State.awaitRandom_cases (s : State) :
    (∃ before v after, s.inputs = before ++ .random v :: after ∧
      s.awaitRandom = { s with rng := s.rng ++ v, inputs := .writeCmd 0x06 :: (before ++ after) }) ∨
    (∃ before after, s.inputs = before ++ .reset :: after ∧
      s.awaitRandom = { s with inputs := before ++ after }.resetCore) ∨
    s.awaitRandom = { s with inputs := .writeCmd 0x06 :: s.inputs } := by
  unfold State.awaitRandom
  split
  · rename_i b v a h
    exact .inl ⟨b, v, a, (splitOutside_some h).1, rfl⟩
  · rename_i b a h
    exact .inr (.inl ⟨b, a, (splitOutside_some h).1, rfl⟩)
  · exact .inr (.inr rfl)

/-- Everything a fetch can find. -/
theorem fetch_cases (s : State) :
    (s.inputs = [] ∧ fetch s = .settled s) ∨
    (∃ w rest i, s.inputs = .writeCmd w :: rest ∧ s.status.busy = false ∧ decodeWord w = .ok i ∧
      fetch s = .command i { s with inputs := rest }) ∨
    (∃ w rest e, s.inputs = .writeCmd w :: rest ∧ s.status.busy = false ∧ decodeWord w = .error e ∧
      fetch s = .settled { s with inputs := rest }.refuse) ∨
    (∃ a rest, s.inputs = a :: rest ∧ ((∀ w, a ≠ .writeCmd w) ∨ s.status.busy = true) ∧
      fetch s = .settled (access { s with inputs := rest } a)) := by
  unfold fetch
  split
  · exact .inl ⟨‹_›, rfl⟩
  · rename_i w rest h
    unfold issue
    by_cases hb : s.status.busy = true
    · refine .inr (.inr (.inr ⟨.writeCmd w, rest, h, .inr hb, ?_⟩))
      simp [hb, access, accessBusy]
    · have hb' : s.status.busy = false := by simpa using hb
      cases hd : decodeWord w with
      | ok i => exact .inr (.inl ⟨w, rest, i, h, hb', hd, by simp [hb']⟩)
      | error e => exact .inr (.inr (.inl ⟨w, rest, e, h, hb', hd, by simp [hb']⟩))
  · rename_i a rest hne h
    exact .inr (.inr (.inr ⟨a, rest, h, .inl hne, rfl⟩))

/-- Everything a step can do: stay idle, run a command, refuse a reserved word, take another input. -/
theorem step_cases {s t : State} (h : step s = .next t) :
    (s.inputs = [] ∧ t = s) ∨
    (∃ w rest i, s.inputs = .writeCmd w :: rest ∧ s.status.busy = false ∧ decodeWord w = .ok i ∧
      exec i { s with inputs := rest } = .next t) ∨
    (∃ w rest, s.inputs = .writeCmd w :: rest ∧ t = { s with inputs := rest }.refuse) ∨
    (∃ a rest, s.inputs = a :: rest ∧ t = access { s with inputs := rest } a) := by
  unfold step at h
  rcases fetch_cases s with ⟨h1, h2⟩ | ⟨w, r, i, h1, h2, h3, h4⟩ | ⟨w, r, e, h1, h2, h3, h4⟩ | ⟨a, r, h1, h2, h3⟩
  · rw [h2] at h
    injection h with h
    exact .inl ⟨h1, h.symm⟩
  · rw [h4] at h
    exact .inr (.inl ⟨w, r, i, h1, h2, h3, h⟩)
  · rw [h4] at h
    injection h with h
    exact .inr (.inr (.inl ⟨w, r, h1, h.symm⟩))
  · rw [h3] at h
    injection h with h
    exact .inr (.inr (.inr ⟨a, r, h1, h.symm⟩))

/-- `open` ends in one of two ways (43_aead R142). -/
theorem aeadOpen_cases (key : Octets 32) (nonce : Octets 24) (ct : List Byte) (tag : Octets 16) (aad : List Byte) :
    (ctEq tag (aeadTag (oneTimeKey key nonce) aad ct) = true ∧
      aeadOpen key nonce ct tag aad = some (xchachaXor key nonce 1 ct)) ∨
    (ctEq tag (aeadTag (oneTimeKey key nonce) aad ct) = false ∧ aeadOpen key nonce ct tag aad = none) := by
  unfold aeadOpen
  cases ctEq tag (aeadTag (oneTimeKey key nonce) aad ct) <;> simp

/-- `DERIVE` ends in one of two ways (40_kdu R91). -/
theorem deriveWith_cases (kdf : Kdf) (s : State) :
    (∃ k, kdf s.mem.pw s.salt = some k ∧ deriveWith kdf s = ((s.wipeBuf .pw).loadKey k).finish .ok) ∨
    (kdf s.mem.pw s.salt = none ∧ deriveWith kdf s = ((s.wipeBuf .pw).wipeKey).raise .keyDerivation) := by
  unfold deriveWith
  cases h : kdf s.mem.pw s.salt with
  | none => exact .inr ⟨rfl, rfl⟩
  | some k => exact .inl ⟨k, rfl, rfl⟩

/-- Whatever `KDF` answers, an `ENCRYPT` with its 40 bytes keeps the pending inputs, takes its draw off the source and
ends not busy (45_public R171). -/
theorem encryptDrawn_around (kdf : Kdf) (s : State) :
    (encryptDrawn kdf s).inputs = s.inputs ∧ (encryptDrawn kdf s).rng = s.rng.drop 40 ∧
      (encryptDrawn kdf s).status.busy = false := by
  unfold encryptDrawn
  simp only
  cases kdf s.mem.pw (octets 16 s.rng) <;> simp [encryptTail]

/-- A step that draws runs `ENCRYPT` on its 40 bytes. -/
theorem step_of_draws {s : State} {v : List Byte} {w : BitVec 8} {rest : List Input} (h : Draws s v)
    (hi : s.inputs = .writeCmd w :: rest) : step s = .next (encryptDrawn Config.kdf { s with inputs := rest }) := by
  obtain ⟨⟨⟨r, e⟩, hb⟩, hr, -⟩ := h
  obtain rfl : w = encodeWord .cmdEncrypt := by rw [hi] at e; injection e with e; injection e
  have hd := (decodeWord_eq_ok_iff _ .cmdEncrypt).2 rfl
  simp only [step, fetch, hi, issue, hb, hd, Bool.false_eq_true, if_false, exec, execEncrypt, encryptWith]
  rw [if_neg (by simpa using hr)]

/-- The run goes where the step goes. -/
theorem State.after_succ {s t : State} {n : Nat} (h : step (s.after n) = .next t) : s.after (n + 1) = t := by
  simp [State.after, h]

/-- A run that has no inputs left stays where it is. -/
theorem State.after_of_idle {s : State} {k : Nat} (h : (s.after k).inputs = []) {n : Nat} (hn : k ≤ n) :
    s.after n = s.after k := by
  induction n, hn using Nat.le_induction with
  | base => rfl
  | succ n _ ih => exact State.after_succ (by rw [ih]; simp [step, fetch, h])

/-- What takes a reset is reset: the random source and the last read stay, everything of the core is as after reset. -/
theorem TakesReset.core {s t : State} (h : TakesReset s t) : t = t.resetCore := by
  rcases h with ⟨r, -, rfl⟩ | ⟨b, a, -, -, -, -, rfl⟩ <;> rfl

end Sys2Proof.Machine
end

