-- ==== Sys2Proof/Laws/PerInstr.lean ====
section
/-! SUPPORT. Statements for all commands, one lemma per constructor. -/

namespace Sys2Proof.Laws

/-- The word of a command is well formed: its `zero` field is 0 and its `op` field is not, and it is one byte
(30_encoding R70, R73, R75). -/
def WordForm.Statement (i : Instr) : Prop :=
  wordWellFormed (encodeWord i) = true ∧ i.wellFormed = true ∧ (encode i).length = 1

theorem WordForm.cmdDerive : WordForm.Statement .cmdDerive := by unfold WordForm.Statement; decide
theorem WordForm.cmdSeal : WordForm.Statement .cmdSeal := by unfold WordForm.Statement; decide
theorem WordForm.cmdOpen : WordForm.Statement .cmdOpen := by unfold WordForm.Statement; decide
theorem WordForm.cmdEncode : WordForm.Statement .cmdEncode := by unfold WordForm.Statement; decide
theorem WordForm.cmdDecode : WordForm.Statement .cmdDecode := by unfold WordForm.Statement; decide
theorem WordForm.cmdEncrypt : WordForm.Statement .cmdEncrypt := by unfold WordForm.Statement; decide
theorem WordForm.cmdDecrypt : WordForm.Statement .cmdDecrypt := by unfold WordForm.Statement; decide

end Sys2Proof.Laws
end

