-- ==== Sys2Proof/Tests/Slice0.lean ====
section
/-! SUPPORT. Tests on the vectors of spec/95_test_vectors.md, and for each statement with hypotheses a named witness
that meets them. Expected results come from the spec's vectors, never from the model. -/

namespace Sys2Proof.Tests

open Sys2Proof.Machine

-- One theorem after another: the tests evaluate whole ciphers, and their threads side by side need too much memory.
set_option Elab.async false

/-- The consecutive byte values from `a` on, `n` of them: the spec's `00 01 .. 1f`. -/
def run (a n : Nat) : List Byte := (List.range n).map fun i => BitVec.ofNat 8 (a + i)

/-- `KDF_TEST`, the stub of 95_test_vectors section 7.1. -/
def kdfTest : Kdf := fun pw salt =>
  some (Vector.ofFn fun i : Fin 32 =>
    salt.toList.getD (i.val % 16) 0 ^^^ pw.getD (i.val % pw.length) 0 ^^^ BitVec.ofNat 8 i.val)

/-- A `KDF` of a misconfigured build (95_test_vectors section 8.5). -/
def kdfFails : Kdf := fun _ _ => none

/-- A property of the state that one step answers. -/
def stepGives (s : State) (p : State → Bool) : Bool :=
  match step s with
  | .next t => p t
  | .fault _ => false
  | .refused _ => false

/-- From reset, a key and the nonce `00 01 .. 17` loaded, one write of `CMD` pending. -/
def keyed (w : BitVec 8) : State :=
  { State.reset.loadKey (octets 32 (run 0 32)) with nonce := octets 24 (run 0 24), inputs := [.writeCmd w] }

/-! ## Well-formedness of a word: an ill-formed term for each check -/

theorem test_word_zero_op : wordWellFormed 0x00 = false := by decide
theorem test_word_zero_field_low : wordWellFormed 0x08 = false := by decide
theorem test_word_zero_field_high : wordWellFormed 0x83 = false := by decide

/-! ## Decoding: the word of each command written out from 30_encoding R71 -/

theorem test_decode_derive : decodeWord 0b00000001#8 = .ok .cmdDerive := by decide
theorem test_decode_seal : decodeWord 0b00000010#8 = .ok .cmdSeal := by decide
theorem test_decode_open : decodeWord 0b00000011#8 = .ok .cmdOpen := by decide
theorem test_decode_encode : decodeWord 0b00000100#8 = .ok .cmdEncode := by decide
theorem test_decode_decode : decodeWord 0b00000101#8 = .ok .cmdDecode := by decide
theorem test_decode_encrypt : decodeWord 0b00000110#8 = .ok .cmdEncrypt := by decide
theorem test_decode_decrypt : decodeWord 0b00000111#8 = .ok .cmdDecrypt := by decide
theorem test_decode_reserved : decodeWord 0b10000011#8 = .error .reservedZeroField := by decide
theorem test_decode_table_word : decodeTableWord 8 0x06 = some .cmdEncrypt := by decide

/-! ## The first step after reset runs the placed command, `DERIVE` and `ENCRYPT` under the open `KDF` too -/

theorem test_first_step_derive : stepGives (State.reset.withFetchWord 8 0x01) (fun _ => true) = true := by decide
theorem test_first_step_encrypt : stepGives (State.reset.withFetchWord 8 0x06) (fun _ => true) = true := by decide
theorem test_first_step_decrypt :
    stepGives (State.reset.withFetchWord 8 0x07) (fun t => t.status.word == 0x11) = true := by decide

/-! ## The cipher, the MAC, the comparator (95_test_vectors sections 2 to 4) -/

/-- 2.1 (a). -/
theorem test_quarter_round : quarterRound 0x11111111 0x01020304 0x9b8d6f43 0x01234567 =
    (0xea2a92f4, 0xcb1cf8ce, 0x4581472e, 0x5881c4bb) := by decide
/-- 2.1 (d): every addition wraps. -/
theorem test_quarter_round_wraps : quarterRound 0xffffffff 0xffffffff 0xffffffff 0xffffffff =
    (0xf0000ffd, 0x88790878, 0x0110fdef, 0x010ffdf0) := by decide
/-- 2.2 (a). -/
theorem test_double_round : (doubleRound (initialState (zeros 32) [0, 0, 0, 0])).toList =
    [0xe45fd249, 0x1bb820a6, 0xe31a88ea, 0xe667a9fe, 0x2a3bf673, 0x86bf4098, 0x460b500a, 0xfa169886,
     0x538dca0e, 0x0c439641, 0x00fa16bc, 0x8a08812a, 0x6bbf8b09, 0xc33013d6, 0xbb9f9849, 0x87c62165] := by
  decide +kernel
/-- 2.3 (a): the little-endian loading of key, counter and nonce. -/
theorem test_chacha_block :
    (chachaBlock (octets 32 (run 0 32)) 1
      (octets 12 [0x00, 0x00, 0x00, 0x09, 0x00, 0x00, 0x00, 0x4a, 0x00, 0x00, 0x00, 0x00])).toList =
    [0x10, 0xf1, 0xe7, 0xe4, 0xd1, 0x3b, 0x59, 0x15, 0x50, 0x0f, 0xdd, 0x1f, 0xa3, 0x20, 0x71, 0xc4,
     0xc7, 0xd1, 0xf4, 0xc7, 0x33, 0xc0, 0x68, 0x03, 0x04, 0x22, 0xaa, 0x9a, 0xc3, 0xd4, 0x6c, 0x4e,
     0xd2, 0x82, 0x64, 0x46, 0x07, 0x9f, 0xaa, 0x09, 0x14, 0xc2, 0xd7, 0x05, 0xd9, 0x8b, 0x02, 0xa2,
     0xb5, 0x12, 0x9c, 0xd1, 0xde, 0x16, 0x4e, 0xb9, 0xcb, 0xd0, 0x83, 0xe8, 0xa2, 0x50, 0x3c, 0x4e] := by
  decide +kernel
/-- 3.1 (b). -/
theorem test_hchacha :
    (hchacha (octets 32 (run 0 32))
      (octets 16 [0, 0, 0, 9, 0, 0, 0, 0x4a, 0, 0, 0, 0, 0x31, 0x41, 0x59, 0x27])).toList =
    [0x82, 0x41, 0x3b, 0x42, 0x27, 0xb2, 0x7b, 0xfe, 0xd3, 0x0e, 0x42, 0x50, 0x8a, 0x87, 0x7d, 0x73,
     0xa0, 0xf9, 0xe4, 0xd5, 0x8a, 0x74, 0xa8, 0x53, 0xc1, 0x2e, 0xc4, 0x13, 0x26, 0xd3, 0xec, 0xdc] := by
  decide +kernel
/-- 3.2: the first bytes of `xchacha20_block(key, N, 2)`. -/
theorem test_xchacha_block :
    (xchachaBlock (octets 32 (run 0 32)) (octets 24 (run 0 24)) 2).toList.take 8 =
    [0xb2, 0x20, 0xff, 0xb3, 0x08, 0x99, 0x64, 0x85] := by decide +kernel
/-- 4.1 (a). -/
theorem test_poly1305 :
    (poly1305 (octets 32
      [0x85, 0xd6, 0xbe, 0x78, 0x57, 0x55, 0x6d, 0x33, 0x7f, 0x44, 0x52, 0xfe, 0x42, 0xd5, 0x06, 0xa8,
       0x01, 0x03, 0x80, 0x8a, 0xfb, 0x0d, 0xb2, 0xfd, 0x4a, 0xbf, 0xf6, 0xaf, 0x41, 0x49, 0xf5, 0x1b])
      [0x43, 0x72, 0x79, 0x70, 0x74, 0x6f, 0x67, 0x72, 0x61, 0x70, 0x68, 0x69, 0x63, 0x20, 0x46, 0x6f, 0x72,
       0x75, 0x6d, 0x20, 0x52, 0x65, 0x73, 0x65, 0x61, 0x72, 0x63, 0x68, 0x20, 0x47, 0x72, 0x6f, 0x75, 0x70]).toList =
    [0xa8, 0x06, 0x1d, 0xc1, 0x30, 0x51, 0x36, 0xc6, 0xc2, 0x2b, 0x8b, 0xaf, 0x0c, 0x01, 0x27, 0xa9] := by
  decide +kernel
/-- 4.1 (f): `ACC + S` passes `2^128`. -/
theorem test_poly1305_sum_wraps :
    (poly1305 (octets 32 (2 :: List.replicate 15 0 ++ List.replicate 16 0xff)) (2 :: List.replicate 15 0)).toList =
    3 :: List.replicate 15 0 := by decide +kernel
/-- 4.1 (s): a full block and a one-byte block under the largest multiplier. -/
theorem test_poly1305_short_block :
    (poly1305 (octets 32 (List.replicate 32 0xff)) (run 0 17)).toList =
    [0xc6, 0x73, 0xb5, 0x58, 0x84, 0xa6, 0xce, 0xb1, 0x39, 0x9d, 0xb1, 0xdd, 0xca, 0x78, 0x82, 0x00] := by
  decide +kernel
/-- 4.2 (b). -/
theorem test_mac_data :
    macData [0x50, 0x51, 0x52, 0x53, 0xc0, 0xc1, 0xc2, 0xc3, 0xc4, 0xc5, 0xc6, 0xc7] [0xaa, 0xaa, 0xaa] =
    [0x50, 0x51, 0x52, 0x53, 0xc0, 0xc1, 0xc2, 0xc3, 0xc4, 0xc5, 0xc6, 0xc7, 0, 0, 0, 0,
     0xaa, 0xaa, 0xaa, 0, 0, 0, 0, 0, 0, 0, 0, 0, 0, 0, 0, 0,
     0x0c, 0, 0, 0, 0, 0, 0, 0, 0x03, 0, 0, 0, 0, 0, 0, 0] := by decide +kernel
/-- 4.3: byte 15, bit 7 flipped, gives `DIFF = 0x80` after the same sixteen steps. -/
theorem test_ct_run :
    ctRun (octets 16 (run 0xf0 16)) (octets 16 (run 0xf0 15 ++ [0x7f])) = ⟨0x80, 16⟩ := by decide +kernel

/-! ## One step of each command (95_test_vectors sections 5 to 8) -/

/-- 7.1 (a). -/
theorem test_derive :
    (deriveWith kdfTest { State.reset with
      salt := octets 16 (run 0 16)
      mem := Memory.empty.set .pw [0x6d, 0x79, 0x5f, 0x70, 0x61, 0x73, 0x73, 0x77, 0x6f, 0x72, 0x64] }).key.toList =
    [0x6d, 0x79, 0x5f, 0x70, 0x61, 0x73, 0x73, 0x77, 0x6f, 0x72, 0x64, 0x6d, 0x79, 0x5f, 0x70, 0x61,
     0x63, 0x63, 0x67, 0x7f, 0x62, 0x74, 0x7d, 0x69, 0x4f, 0x60, 0x71, 0x63, 0x63, 0x67, 0x7f, 0x62] := by
  decide +kernel
/-- 7.1, the failing `KDF`: `STATUS = 0x53`. -/
theorem test_derive_fails : (deriveWith kdfFails State.reset).status.word = 0x53 := by decide
/-- 5.3: `SEAL` with AAD. -/
theorem test_seal :
    stepGives { keyed 0x02 with mem := ⟨[], [0x68, 0x64, 0x72], [0xde, 0xad, 0xbe, 0xef], [], []⟩ } (fun t =>
      t.mem.ct == [0x40, 0x6f, 0xb1, 0x90] && t.tag.toList ==
        [0x2f, 0x46, 0xca, 0xde, 0x7d, 0xdd, 0x2b, 0x90, 0x5b, 0xc3, 0x2b, 0x96, 0x8c, 0x57, 0x65, 0xb7]
      && t.status.word == 0x10) = true := by decide +kernel
/-- 8.3: `SEAL` from reset is refused, `STATUS = 0x14`. -/
theorem test_seal_refused : stepGives (State.reset.withFetchWord 8 0x02) (fun t => t.status.word == 0x14) = true := by
  decide
/-- 5.4 (g): the one-byte ciphertext opens to `00`. -/
theorem test_open :
    stepGives { keyed 0x03 with
      mem := Memory.empty.set .ct [0x9e]
      tag := octets 16
        [0x4f, 0x62, 0x09, 0xa0, 0x20, 0x22, 0xf5, 0xa5, 0xe5, 0x17, 0xbc, 0xb5, 0xda, 0xf7, 0x11, 0xa1] }
      (fun t => t.mem.pt == [0x00] && t.status.word == 0x10) = true := by decide +kernel
/-- 5.4 (a): bit 7 of the last tag byte flipped. -/
theorem test_open_tampered :
    stepGives { keyed 0x03 with
      mem := ⟨[], [], [0x55], [0x9e], []⟩
      tag := octets 16
        [0x4f, 0x62, 0x09, 0xa0, 0x20, 0x22, 0xf5, 0xa5, 0xe5, 0x17, 0xbc, 0xb5, 0xda, 0xf7, 0x11, 0x21] }
      (fun t => t.mem.pt == [] && t.mem.ct == [0x9e] && t.status.word == 0x12) = true := by decide +kernel
/-- 6 (a). -/
theorem test_encode :
    stepGives { State.reset with
      salt := octets 16 (run 0xa0 16)
      nonce := octets 24 (run 0xb0 24)
      tag := octets 16 (run 0xf0 16)
      mem := Memory.empty.set .ct [0xde, 0xad, 0xbe, 0xef]
      inputs := [.writeCmd 0x04] }
      (fun t => t.mem.env == run 0xa0 16 ++ run 0xb0 24 ++ [0xde, 0xad, 0xbe, 0xef] ++ run 0xf0 16) = true := by
  decide +kernel
/-- 6 (e): 57 bytes. -/
theorem test_decode :
    stepGives { State.reset with mem := Memory.empty.set .env (run 0 57), inputs := [.writeCmd 0x05] }
      (fun t => t.salt.toList == run 0 16 && t.nonce.toList == run 0x10 24 && t.mem.ct == [0x28]
        && t.tag.toList == run 0x29 16 && t.status.word == 0x10) = true := by decide +kernel
/-- 6 (d): 55 bytes. -/
theorem test_decode_malformed :
    stepGives { State.reset with
      salt := octets 16 (run 0xa0 16)
      mem := ⟨[], [], [], [0xde], run 0 55⟩
      inputs := [.writeCmd 0x05] }
      (fun t => t.salt == zeros 16 && t.mem.ct == [] && t.mem.env == run 0 55 && t.status.word == 0x11) = true := by
  decide +kernel

/-- The ciphertext and tag of 7.2. -/
def scenarioTail : List Byte :=
  [0x2c, 0x6b, 0xca, 0xf7, 0x17, 0xf0, 0x71, 0xec, 0x7d, 0x46, 0x65, 0x7d, 0x76, 0x96, 0xb7, 0x4d, 0x75, 0xeb, 0xe5,
   0x11, 0xbc, 0x66, 0xba, 0xf6, 0x83, 0x4b]
/-- `my message`. -/
def scenarioText : List Byte := [0x6d, 0x79, 0x20, 0x6d, 0x65, 0x73, 0x73, 0x61, 0x67, 0x65]
/-- `my_password`. -/
def scenarioPassword : List Byte := [0x6d, 0x79, 0x5f, 0x70, 0x61, 0x73, 0x73, 0x77, 0x6f, 0x72, 0x64]

/-- 7.2: the 66-byte envelope. -/
theorem test_encrypt :
    (encryptWith kdfTest { State.reset with
      mem := ⟨scenarioPassword, [], scenarioText, [], []⟩, rng := run 0 40 }).mem.env = run 0 40 ++ scenarioTail := by
  decide +kernel
/-- 8.5: a failing `KDF` consumes the 40 bytes and leaves `STATUS = 0x53`. -/
theorem test_encrypt_fails :
    encryptWith kdfFails { State.reset with rng := run 0 41 } =
      { State.reset with rng := [40], status := ⟨.keyDerivation, false, true, false, true⟩ } := by decide +kernel
/-- 7.2 (a). -/
theorem test_decrypt :
    (decryptWith kdfTest { State.reset with
      mem := ⟨scenarioPassword, [], [], [], run 0 40 ++ scenarioTail⟩ }).mem.pt = scenarioText := by decide +kernel
/-- 7.2 (b): another password. -/
theorem test_decrypt_wrong_password :
    (decryptWith kdfTest { State.reset with
      mem := ⟨[0x77, 0x72, 0x6f, 0x6e, 0x67], [], [0x55], [], run 0 40 ++ scenarioTail⟩ }).status.word = 0x12 := by
  decide +kernel

/-! ## Witnesses: states and operands that meet the hypotheses of each statement together -/

/-- A state in which a reserved word, or a command, is the next input. -/
def issued (w : BitVec 8) : State := { State.reset with inputs := [.writeCmd w] }

theorem reset_inv : Inv State.reset :=
  ⟨Memory.wf_reset, fun _ => rfl, rfl, rfl, by simp [State.reset, Status.reset], fun _ => rfl⟩

theorem witness_DecodingFollowsTheProcedure :
    ((0x00#8).extractLsb' 0 3 = 0 ∧ (0x08#8).extractLsb' 3 5 ≠ 0) ∧
      (0x07#8).extractLsb' 3 5 = 0 ∧ (0x07#8).extractLsb' 0 3 ≠ 0 := by decide
theorem witness_StepRunsTheDecodedCommand :
    (issued 0x01).inputs = .writeCmd 0x01 :: [] ∧ (issued 0x01).status.busy = false ∧
      decodeWord 0x01 = .ok .cmdDerive := by decide
theorem witness_ReservedWordIsRefused :
    (issued 0x08).inputs = .writeCmd 0x08 :: [] ∧ (issued 0x08).status.busy = false ∧ 8 ≤ (0x08#8).toNat := by decide
theorem witness_ReservedWordIsRefused_zero :
    (issued 0x00).inputs = .writeCmd 0 :: [] ∧ (issued 0x00).status.busy = false := by decide
theorem witness_IdleWithoutInput : State.reset.inputs = [] := rfl
theorem witness_SealCommand : (keyed 0x02).status.keyValid = true ∧ State.reset.status.keyValid = false := by decide

/-- A state whose tag is the computed one. -/
def matching : State :=
  { keyed 0x03 with tag := aeadTag (oneTimeKey (keyed 0x03).key (keyed 0x03).nonce) [] [] }

theorem witness_OpenCommand_match : matching.status.keyValid = true ∧
    matching.tag = aeadTag (oneTimeKey matching.key matching.nonce) matching.mem.aad matching.mem.ct := by
  decide +kernel
theorem witness_OpenCommand_mismatch : (keyed 0x03).status.keyValid = true ∧
    (keyed 0x03).tag ≠ aeadTag (oneTimeKey (keyed 0x03).key (keyed 0x03).nonce) (keyed 0x03).mem.aad
      (keyed 0x03).mem.ct := by decide +kernel
theorem witness_OpenCommand_refused : State.reset.status.keyValid = false := rfl

/-- An envelope of `n` zero bytes. -/
def zeroEnvelope (n : Nat) : State := { State.reset with mem := Memory.empty.set .env (List.replicate n 0) }

theorem witness_DecodeCommand_56 : (zeroEnvelope 56).mem.env =
    (zeros 16).toList ++ (zeros 24).toList ++ [] ++ (zeros 16).toList := by decide +kernel
theorem witness_DecodeCommand_55 : (zeroEnvelope 55).mem.env.length < 56 ∧ 56 ≤ (zeroEnvelope 56).mem.env.length := by
  decide

/-- Exactly forty random bytes. -/
def forty : State := { State.reset with rng := List.replicate 40 0 }

theorem witness_EncryptCommand : forty.rng = (zeros 16).toList ++ (zeros 24).toList ++ [] := by decide +kernel

/-- An `ENCRYPT` waiting with thirty-nine random bytes, `rest` behind it. -/
def waiting (rest : List Input) : State :=
  { State.reset with rng := List.replicate 39 0, inputs := .writeCmd 0x06 :: rest }

theorem witness_EncryptWaitsForRandomness :
    (waiting [.read .status]).inputs = .writeCmd 0x06 :: [.read .status] ∧ (waiting [.read .status]).status.busy = false ∧
      (waiting [.read .status]).rng.length < 40 ∧ ∀ a ∈ [Input.read .status], a.isOutside = false := by decide
theorem witness_WaitEndsByDelivery :
    (waiting [.read .status, .random [1]]).status.busy = false ∧ (waiting [.read .status, .random [1]]).rng.length < 40 ∧
      (∀ a ∈ [Input.read .status], a.isOutside = false) ∧
      (waiting [.read .status, .random [1]]).inputs =
        .writeCmd 0x06 :: ([Input.read .status] ++ .random [1] :: []) := by decide
theorem witness_WaitEndsByReset :
    (waiting [.read .status, .reset]).status.busy = false ∧ (waiting [.read .status, .reset]).rng.length < 40 ∧
      (∀ a ∈ [Input.read .status], a.isOutside = false) ∧
      (waiting [.read .status, .reset]).inputs = .writeCmd 0x06 :: ([Input.read .status] ++ .reset :: []) := by decide

theorem witness_DecryptCommand_55 : (zeroEnvelope 55).mem.env.length < 56 := by decide
theorem witness_DecryptCommand_56 : (zeroEnvelope 56).mem.env =
    (zeros 16).toList ++ (zeros 24).toList ++ [] ++ (zeros 16).toList := by decide +kernel

/-- For the statements about a command that answers a next state: frames, flags, codes. -/
theorem witness_HasStep : HasStep .cmdEncrypt forty ∧ ∃ t, exec .cmdEncrypt forty = .next t :=
  ⟨fun _ => by decide, _, rfl⟩
theorem witness_CommandsDependOnlyOnTheirOperands :
    Accepts .cmdEncrypt forty ∧ Accepts .cmdEncrypt { forty with readData := some (.byte 0), tag := octets 16 [1] } ∧
      AgreeOn (readsOf .cmdEncrypt) forty { forty with readData := some (.byte 0), tag := octets 16 [1] } ∧
      forty.rng.take (drawsOf .cmdEncrypt) =
        ({ forty with readData := some (.byte 0), tag := octets 16 [1] } : State).rng.take (drawsOf .cmdEncrypt) ∧
      (∃ t, exec .cmdEncrypt forty = .next t) ∧
      ∃ t, exec .cmdEncrypt { forty with readData := some (.byte 0), tag := octets 16 [1] } = .next t :=
  ⟨Nat.le_refl 40, Nat.le_refl 40, fun l hl => by revert l hl; decide, rfl, ⟨_, rfl⟩, ⟨_, rfl⟩⟩
theorem witness_KeyIsWipedByItsConsumers :
    Instr.cmdSeal ∈ [Instr.cmdSeal, .cmdOpen, .cmdEncrypt, .cmdDecrypt] ∧ Accepts .cmdSeal (keyed 0x02) ∧
      ∃ t, exec .cmdSeal (keyed 0x02) = .next t := ⟨by decide, rfl, _, rfl⟩
theorem witness_PasswordIsWipedByItsConsumers :
    Instr.cmdDerive ∈ [Instr.cmdDerive, .cmdEncrypt, .cmdDecrypt] ∧ HasStep .cmdDerive State.reset ∧
      ∃ t, exec .cmdDerive State.reset = .next t := ⟨by decide, fun h => absurd h (by decide), _, rfl⟩
theorem witness_WorkingRegistersAreZeroAfterACommand :
    Accepts .cmdEncode State.reset ∧ (∃ t, exec .cmdEncode State.reset = .next t) ∧
      ({ State.reset with inputs := [.reset] } : State).inputs = .reset :: [] ∧
      ∃ t, step { State.reset with inputs := [.reset] } = .next t := ⟨trivial, ⟨_, rfl⟩, rfl, _, rfl⟩
theorem witness_FailureLeavesNoPlaintext :
    Instr.cmdDecrypt ∈ [Instr.cmdOpen, .cmdDecrypt] ∧ Accepts .cmdDecrypt State.reset ∧
      ∃ t, exec .cmdDecrypt State.reset = .next t ∧ t.status.err ≠ .ok :=
  ⟨by decide, trivial, _, rfl, by decide⟩
theorem witness_AuthenticationFailuresEndAlike :
    (decryptWith kdfTest (zeroEnvelope 56)).status.err = .authentication ∧
      (decryptWith kdfTest { zeroEnvelope 56 with
        mem := { (zeroEnvelope 56).mem with pw := [1], env := List.replicate 57 0 } }).status.err = .authentication := by
  decide +kernel

/-- A state after a `KeyDerivationError`, `FATAL` set. -/
def fatal (l : List Input) : State := { waiting [] with status := ⟨.keyDerivation, false, true, false, true⟩, inputs := l }

/-- `FATAL` kept although a reset is pending, cleared by a reset at the head, and by one behind a waiting `ENCRYPT`. -/
theorem witness_FatalIsStickyUntilReset : (fatal [.read .status, .reset]).status.fatal = true ∧
    stepGives (fatal [.read .status, .reset]) (fun t => t.status.fatal) = true ∧
    stepGives (fatal [.reset]) (fun t => t.status.fatal) = false ∧
    stepGives (fatal [.writeCmd 0x06, .read .status, .reset]) (fun t => t.status.fatal) = false := by decide
theorem witness_TakesReset :
    TakesReset (fatal [.writeCmd 0x06, .read .status, .reset])
      { State.reset with rng := List.replicate 39 0, inputs := [.read .status] } :=
  .inr ⟨[.read .status], [], rfl, by decide, rfl, by decide, rfl⟩
theorem witness_KeyBecomesValidOnlyByLoadOrDerive :
    ∃ t, step { State.reset with inputs := [.loadKey (zeros 32)] } = .next t ∧
      State.reset.status.keyValid = false ∧ t.status.keyValid = true := ⟨_, rfl, rfl, rfl⟩
theorem witness_EveryStepKeepsTheInvariant : Inv (issued 0x04) ∧ ∃ t, step (issued 0x04) = .next t :=
  ⟨⟨Memory.wf_reset, fun _ => rfl, rfl, rfl, by simp [issued, State.reset, Status.reset], fun _ => rfl⟩, _, rfl⟩
theorem witness_HostReadsAnswerTheTable :
    ({ State.reset with inputs := [.read .key] } : State).inputs = .read .key :: [] ∧
      State.reset.status.busy = false := by decide
theorem witness_HostWritesTakeEffect : State.reset.status.busy = false ∧
    ({ State.reset with inputs := [.loadKey (zeros 32)] } : State).inputs = .loadKey (zeros 32) :: [] ∧
    ({ State.reset with inputs := [.loadSalt (zeros 16)] } : State).inputs = .loadSalt (zeros 16) :: [] ∧
    ({ State.reset with inputs := [.loadNonce (zeros 24)] } : State).inputs = .loadNonce (zeros 24) :: [] ∧
    ({ State.reset with inputs := [.loadTag (zeros 16)] } : State).inputs = .loadTag (zeros 16) :: [] ∧
    ({ State.reset with inputs := [.loadBuf .pt []] } : State).inputs = .loadBuf .pt [] :: [] ∧
    ([] : List Byte).length ≤ Buf.pt.capacity ∧
    ({ State.reset with inputs := [.writeStatus 0xff] } : State).inputs = .writeStatus 0xff :: [] ∧
    ({ State.reset with inputs := [.writeLen .pt 1] } : State).inputs = .writeLen .pt 1 :: [] ∧
    ({ State.reset with inputs := [.random [1]] } : State).inputs = .random [1] :: [] :=
  ⟨rfl, rfl, rfl, rfl, rfl, rfl, Nat.zero_le _, rfl, rfl, rfl⟩
theorem witness_OverlongWriteHasNoEffect :
    ({ State.reset with inputs := [.loadBuf .pw (List.replicate (Config.pwMax + 1) 0)] } : State).inputs =
        .loadBuf .pw (List.replicate (Config.pwMax + 1) 0) :: [] ∧
      Buf.pw.capacity < (List.replicate (Config.pwMax + 1) (0 : Byte)).length := ⟨rfl, by simp [Buf.capacity]⟩

/-- A busy core, which no run reaches. -/
def busyWith (a : Input) : State := { State.reset with status := { Status.reset with busy := true }, inputs := [a] }

theorem witness_BusyCoreIgnoresTheHost : (busyWith (.writeCmd 0x04)).status.busy = true ∧
    Input.isHostWrite (.writeCmd 0x04) = true ∧ (busyWith (.writeCmd 0x04)).inputs = .writeCmd 0x04 :: [] ∧
    (busyWith (.read .salt)).status.busy = true ∧ (busyWith (.read .salt)).inputs = .read .salt :: [] := by decide
theorem witness_ResetLeavesTheTable : (busyWith .reset).inputs = .reset :: [] := rfl
theorem witness_TagWithoutMultiplier : polyR (zeros 32) = 0 := by decide +kernel
/-- A padded part of one byte and a full one of sixteen: the clauses on padding have a place in the first alone. -/
theorem witness_MacInputIsFullBlocks : (16 : Nat) = 16 * ((([0x61] : List Byte).length + 15) / 16) ∧
    (16 : Nat) = 16 * (((run 0 16).length + 15) / 16) ∧ ([0x61] : List Byte).length ≤ 15 ∧ 15 < 16 ∧
    ([0x61] : List Byte).length < 2 ^ 64 ∧ (run 0 16).length < 2 ^ 64 := by decide
theorem witness_EnvelopeCodecIsABijection :
    56 ≤ (List.replicate 56 (0 : Byte)).length ∧ (List.replicate 55 (0 : Byte)).length < 56 := by decide
theorem witness_CodecCommandsAreIdempotent :
    Instr.cmdDecode ∈ [Instr.cmdEncode, .cmdDecode] ∧ ∃ t, exec .cmdDecode (zeroEnvelope 56) = .next t :=
  ⟨by decide, _, rfl⟩
theorem witness_SealAnswers : (keyed 0x02).status.keyValid = true ∧ ∃ t, exec .cmdSeal (keyed 0x02) = .next t :=
  ⟨rfl, _, rfl⟩
theorem witness_ChangedTagNeverOpens : zeros 16 ≠ (aeadSeal (zeros 32) (zeros 24) [] []).2 := by decide +kernel
theorem witness_ChangedCiphertextNeedsATagCollision :
    TagsDiffer (oneTimeKey (zeros 32) (zeros 24)) (macData [] (aeadSeal (zeros 32) (zeros 24) [] []).1)
      (macData [] [1]) := by
  unfold TagsDiffer
  decide +kernel
theorem witness_NonceReuseExposesThePlaintexts : ([0x01] : List Byte).length = ([0x80] : List Byte).length := rfl
theorem witness_RoundTripOfAHealthyBuild : KdfNeverFails kdfTest ∧ 40 ≤ forty.rng.length :=
  ⟨fun _ _ h => by simp [kdfTest] at h, by decide⟩
theorem witness_EncryptThenDecryptRestoresThePlaintext :
    40 ≤ forty.rng.length ∧ (encryptWith kdfTest forty).status.err = .ok := by decide +kernel
theorem witness_ChangedTagRegionNeverDecrypts : 40 ≤ forty.rng.length ∧ (encryptWith kdfTest forty).status.err = .ok ∧
    zeros 16 ≠ (encryptWith kdfTest forty).tag := by decide +kernel

/-- The state after the draw of a composite `ENCRYPT` on `forty`, and `DERIVE` in it. -/
def drawn (kdf : Kdf) : State :=
  deriveWith kdf { forty with salt := zeros 16, nonce := zeros 24, rng := [], mem := { forty.mem with aad := [] } }

theorem witness_EncryptIsTheComposite : forty.rng = (zeros 16).toList ++ (zeros 24).toList ++ [] ∧
    (drawn kdfTest).status.err = .ok ∧ (drawn kdfFails).status.err ≠ .ok := by decide +kernel

/-- The first two sub-steps of a composite `DECRYPT`. -/
def parsed (s : State) : State := decodeAccepted { s with mem := { s.mem with aad := [] } }

theorem witness_DecryptIsTheComposite_malformed : (parsed (zeroEnvelope 55)).status.err ≠ .ok := by decide +kernel
theorem witness_DecryptIsTheComposite_derivation : (parsed (zeroEnvelope 56)).status.err = .ok ∧
    (deriveWith kdfFails (parsed (zeroEnvelope 56))).status.err ≠ .ok := by decide +kernel
theorem witness_DecryptIsTheComposite_authentication : (parsed (zeroEnvelope 56)).status.err = .ok ∧
    (deriveWith kdfTest (parsed (zeroEnvelope 56))).status.err = .ok ∧
    (openAccepted (deriveWith kdfTest (parsed (zeroEnvelope 56)))).status.err ≠ .ok := by decide +kernel

/-- The envelope of 7.2 with its password. -/
def scenario : State :=
  { State.reset with mem := ⟨scenarioPassword, [], [], [], run 0 40 ++ scenarioTail⟩ }

theorem witness_DecryptIsTheComposite_opened : (parsed scenario).status.err = .ok ∧
    (deriveWith kdfTest (parsed scenario)).status.err = .ok ∧
    (openAccepted (deriveWith kdfTest (parsed scenario))).status.err = .ok := by decide +kernel

/-! ## Runs that meet the named premises of 70_reset_and_hazards R237 -/

theorem not_issues_of_idle {i : Instr} {s : State} (h : s.inputs = []) : ¬ Issues i s := by
  rintro ⟨⟨r, e⟩, -⟩
  rw [h] at e
  cases e

/-- `ENCRYPT` waits one step for its fortieth byte, draws in the next, and the run is idle. -/
theorem witness_EncryptCompletesWhenTheSourceDelivers :
    RngDelivers (waiting [.random [1]]) ∧ Issues .cmdEncrypt ((waiting [.random [1]]).after 0) := by
  have h1 : (waiting [.random [1]]).after 1 =
      { waiting [] with rng := List.replicate 39 0 ++ [1] } := State.after_succ (n := 0) rfl
  have h2 : (waiting [.random [1]]).after 2 =
      encryptDrawn Config.kdf { waiting [] with rng := List.replicate 39 0 ++ [1], inputs := [] } :=
    State.after_succ (n := 1) (by rw [h1]; rfl)
  have hi : ((waiting [.random [1]]).after 2).inputs = [] := by rw [h2]; exact (encryptDrawn_around _ _).1
  have hd : ∃ v, Draws ((waiting [.random [1]]).after 1) v :=
    ⟨_, by rw [h1]; exact ⟨⟨⟨[], rfl⟩, rfl⟩, by decide, rfl⟩⟩
  refine ⟨fun n hn => ?_, ⟨[.random [1]], rfl⟩, rfl⟩
  match n with
  | 0 =>
    refine ⟨1, by omega, hd, fun k _ hk => ?_⟩
    obtain rfl : k = 0 := by omega
    refine ⟨⟨⟨⟨[.random [1]], rfl⟩, rfl⟩, by decide⟩, fun h => ?_⟩
    rcases h with ⟨r, e, -⟩ | ⟨b, a, e, hb, -⟩
    · cases e
    · have e : [Input.random [1]] = b ++ .reset :: a := (List.cons.inj e).2
      have : Input.reset ∈ [Input.random [1]] := by rw [e]; simp
      simp at this
  | 1 => exact ⟨1, Nat.le_refl 1, hd, fun k h h' => by omega⟩
  | n + 2 =>
    rw [State.after_of_idle hi (by omega)] at hn
    exact absurd hn (not_issues_of_idle hi)

/-- Two draws of a run that differ: forty bytes 0, then forty bytes 1. -/
theorem witness_RngFresh : ∃ s : State, (∃ v, Draws (s.after 0) v) ∧ (∃ v, Draws (s.after 1) v) ∧ RngFresh s := by
  let s : State := { State.reset with
    rng := List.replicate 40 0 ++ List.replicate 40 1, inputs := [.writeCmd 0x06, .writeCmd 0x06] }
  have h1 : s.after 1 = encryptDrawn Config.kdf { s with inputs := [.writeCmd 0x06] } := State.after_succ (n := 0) rfl
  have i1 : (s.after 1).inputs = [.writeCmd 0x06] := by rw [h1]; exact (encryptDrawn_around _ _).1
  have r1 : (s.after 1).rng = List.replicate 40 1 := by rw [h1]; exact (encryptDrawn_around _ _).2.1
  have b1 : (s.after 1).status.busy = false := by rw [h1]; exact (encryptDrawn_around _ _).2.2
  have hd0 : Draws (s.after 0) (List.replicate 40 0) := ⟨⟨⟨_, rfl⟩, rfl⟩, by decide, rfl⟩
  have hd1 : Draws (s.after 1) (List.replicate 40 1) :=
    ⟨⟨⟨[], i1⟩, b1⟩, by rw [r1]; decide, by rw [r1]; rfl⟩
  have h2 : s.after 2 = encryptDrawn Config.kdf { s.after 1 with inputs := [] } :=
    State.after_succ (n := 1) (step_of_draws hd1 i1)
  have hi : (s.after 2).inputs = [] := by rw [h2]; exact (encryptDrawn_around _ _).1
  refine ⟨s, ⟨_, hd0⟩, ⟨_, hd1⟩, fun m n hmn v w hv hw => ?_⟩
  have at2 : ∀ n v, Draws (s.after n) v → n = 0 ∧ v = List.replicate 40 0 ∨ n = 1 ∧ v = List.replicate 40 1 := by
    intro n v hv
    match n with
    | 0 => exact .inl ⟨rfl, hv.2.2⟩
    | 1 => exact .inr ⟨rfl, hv.2.2.trans hd1.2.2.symm⟩
    | n + 2 =>
      rw [State.after_of_idle hi (by omega)] at hv
      exact absurd hv.1 (not_issues_of_idle hi)
  rcases at2 m v hv with ⟨rfl, rfl⟩ | ⟨rfl, rfl⟩ <;> rcases at2 n w hw with ⟨rfl, rfl⟩ | ⟨rfl, rfl⟩
  · exact absurd rfl hmn
  · decide
  · decide
  · exact absurd rfl hmn

/-- Two `SEAL`s in a row: the second is refused and reads no key. -/
theorem witness_NoReuse :
    NoReuse { keyed 0x02 with inputs := [.writeCmd 0x02, .writeCmd 0x02] } := by
  let s : State := { keyed 0x02 with inputs := [.writeCmd 0x02, .writeCmd 0x02] }
  have h1 : s.after 1 = sealAccepted { s with inputs := [.writeCmd 0x02] } := State.after_succ (n := 0) rfl
  have h2 : s.after 2 = { s.after 1 with inputs := [] }.refuse := State.after_succ (n := 1) (by rw [h1]; rfl)
  have only : ∀ n key nonce, SealReads (s.after n) key nonce → n = 0 := by
    intro n key nonce h
    match n with
    | 0 => rfl
    | 1 =>
      have := h.2.1
      rw [h1] at this
      simp [sealAccepted] at this
    | n + 2 =>
      have hi : (s.after 2).inputs = [] := by rw [h2]; rfl
      rw [State.after_of_idle hi (by omega)] at h
      exact absurd h.1 (not_issues_of_idle hi)
  intro m n key nonce hm hn
  rw [only m key nonce hm, only n key nonce hn]

end Sys2Proof.Tests
end

section
/-! How each command ends, said once: every ending of every command with the condition it comes from, and the frame,
the flags and the capacities read off the list of endings. -/

namespace Sys2Proof.Machine

section Updates
variable (s : State) {l : Loc}

/-! What each shared update does to the places it is not about (20_memory R51). -/

@[simp] theorem State.loc_setBuf {b : Buf} {v : List Byte} (h : l ≠ .buf b) : (s.setBuf b v).loc l = s.loc l := by
  cases l with
  | buf b' => exact (Memory.get_set _ _ _ _).trans (if_neg fun e => h (congrArg Loc.buf e))
  | _ => rfl

@[simp] theorem State.loc_wipeBuf {b : Buf} (h : l ≠ .buf b) : (s.wipeBuf b).loc l = s.loc l := s.loc_setBuf h

@[simp] theorem State.loc_loadKey {k : Octets 32} (h : l ≠ .key) : (s.loadKey k).loc l = s.loc l := by
  cases l <;> trivial

@[simp] theorem State.loc_wipeKey (h : l ≠ .key) : s.wipeKey.loc l = s.loc l := by cases l <;> trivial

@[simp] theorem State.loc_setSalt {v : Octets 16} (h : l ≠ .salt) : (s.setSalt v).loc l = s.loc l := by
  cases l <;> trivial

@[simp] theorem State.loc_setNonce {v : Octets 24} (h : l ≠ .nonce) : (s.setNonce v).loc l = s.loc l := by
  cases l <;> trivial

@[simp] theorem State.loc_setTag {v : Octets 16} (h : l ≠ .tag) : (s.setTag v).loc l = s.loc l := by
  cases l <;> trivial

@[simp] theorem State.loc_dropRandom {n : Nat} : (s.dropRandom n).loc l = s.loc l := by cases l <;> rfl

@[simp] theorem State.loc_finish {e : ErrCode} : (s.finish e).loc l = s.loc l := by cases l <;> rfl

@[simp] theorem State.loc_raise {e : ErrCode} : (s.raise e).loc l = s.loc l := s.loc_finish

@[simp] theorem State.loc_refuse : s.refuse.loc l = s.loc l := by cases l <;> rfl

end Updates

/-- `SALT` and `NONCE` drawn, `AAD` emptied and `PW` wiped: the state in which `ENCRYPT` has its key
(45_public R171). -/
def State.takeDraw (s : State) : State :=
  ((((s.wipeBuf .aad).dropRandom 40).setSalt (octets 16 s.rng)).setNonce (octets 24 (s.rng.drop 16))).wipeBuf .pw

/-- The fields of the envelope loaded, `AAD` emptied and `PW` wiped: the state in which `DECRYPT` has its key
(45_public R173). -/
def State.takeFields (s : State) (f : EnvelopeFields) : State := ((s.wipeBuf .aad).setFields f).wipeBuf .pw

/-- How a command ends, under a given `KDF`: one constructor per ending, with the condition that leads to it and the
whole next state. `ENCRYPT` that waits for randomness has not ended and is not here. -/
inductive CommandEnds (kdf : Kdf) : Instr → State → State → Prop
  | derived {s : State} {k : Octets 32} (hk : kdf s.mem.pw s.salt = some k) :
      CommandEnds kdf .cmdDerive s (((s.wipeBuf .pw).loadKey k).finish .ok)
  | deriveFailed {s : State} (hk : kdf s.mem.pw s.salt = none) :
      CommandEnds kdf .cmdDerive s ((s.wipeBuf .pw).wipeKey.raise .keyDerivation)
  | sealed {s : State} {ct : List Byte} {tag : Octets 16} (hv : s.status.keyValid = true)
      (hr : aeadSeal s.key s.nonce s.mem.pt s.mem.aad = (ct, tag)) :
      CommandEnds kdf .cmdSeal s (((s.setBuf .ct ct).setTag tag).wipeKey.finish .ok)
  | sealRefused {s : State} (hv : s.status.keyValid = false) : CommandEnds kdf .cmdSeal s s.refuse
  | opened {s : State} {p : List Byte} (hv : s.status.keyValid = true)
      (ho : aeadOpen s.key s.nonce s.mem.ct s.tag s.mem.aad = some p) :
      CommandEnds kdf .cmdOpen s ((s.wipeKey.setBuf .pt p).finish .ok)
  | openFailed {s : State} (hv : s.status.keyValid = true)
      (ho : aeadOpen s.key s.nonce s.mem.ct s.tag s.mem.aad = none) :
      CommandEnds kdf .cmdOpen s ((s.wipeKey.wipeBuf .pt).raise .authentication)
  | openRefused {s : State} (hv : s.status.keyValid = false) : CommandEnds kdf .cmdOpen s s.refuse
  | encoded {s : State} :
      CommandEnds kdf .cmdEncode s ((s.setBuf .env (encodeEnvelope s.salt s.nonce s.mem.ct s.tag)).finish .ok)
  | decoded {s : State} {f : EnvelopeFields} (hd : decodeEnvelope s.mem.env = some f) :
      CommandEnds kdf .cmdDecode s ((s.setFields f).finish .ok)
  | decodeFailed {s : State} (hd : decodeEnvelope s.mem.env = none) :
      CommandEnds kdf .cmdDecode s (s.clearFields.raise .malformedEnvelope)
  | encrypted {s : State} {k : Octets 32} {ct : List Byte} {tag : Octets 16} (hd : 40 ≤ s.rng.length)
      (hk : kdf s.mem.pw s.takeDraw.salt = some k) (hr : aeadSeal k s.takeDraw.nonce s.mem.pt [] = (ct, tag)) :
      CommandEnds kdf .cmdEncrypt s
        ((((s.takeDraw.setBuf .ct ct).setTag tag).setBuf .env
          (encodeEnvelope s.takeDraw.salt s.takeDraw.nonce ct tag)).wipeKey.finish .ok)
  | encryptFailed {s : State} (hd : 40 ≤ s.rng.length) (hk : kdf s.mem.pw s.takeDraw.salt = none) :
      CommandEnds kdf .cmdEncrypt s ((s.takeDraw.clearFields.wipeBuf .env).wipeKey.raise .keyDerivation)
  | decryptMalformed {s : State} (hd : decodeEnvelope s.mem.env = none) :
      CommandEnds kdf .cmdDecrypt s
        (((s.wipeBuf .aad).clearOutputs.wipeBuf .pw).wipeKey.raise .malformedEnvelope)
  | decryptNoKey {s : State} {f : EnvelopeFields} (hd : decodeEnvelope s.mem.env = some f)
      (hk : kdf s.mem.pw f.salt = none) :
      CommandEnds kdf .cmdDecrypt s ((s.takeFields f).clearOutputs.wipeKey.raise .keyDerivation)
  | decryptFailed {s : State} {f : EnvelopeFields} {k : Octets 32} (hd : decodeEnvelope s.mem.env = some f)
      (hk : kdf s.mem.pw f.salt = some k) (ho : aeadOpen k f.nonce f.ct f.tag [] = none) :
      CommandEnds kdf .cmdDecrypt s ((s.takeFields f).wipeKey.clearOutputs.raise .authentication)
  | decrypted {s : State} {f : EnvelopeFields} {k : Octets 32} {p : List Byte}
      (hd : decodeEnvelope s.mem.env = some f) (hk : kdf s.mem.pw f.salt = some k)
      (ho : aeadOpen k f.nonce f.ct f.tag [] = some p) :
      CommandEnds kdf .cmdDecrypt s (((s.takeFields f).wipeKey.setBuf .pt p).finish .ok)

theorem deriveWith_ends (kdf : Kdf) (s : State) : CommandEnds kdf .cmdDerive s (deriveWith kdf s) := by
  rcases deriveWith_cases kdf s with ⟨k, hk, e⟩ | ⟨hk, e⟩ <;> rw [e]
  · exact .derived hk
  · exact .deriveFailed hk

theorem openAccepted_ends (kdf : Kdf) {s : State} (hv : s.status.keyValid = true) :
    CommandEnds kdf .cmdOpen s (openAccepted s) := by
  unfold openAccepted
  split
  · exact .openFailed hv ‹_›
  · exact .opened hv ‹_›

theorem decodeAccepted_ends (kdf : Kdf) (s : State) : CommandEnds kdf .cmdDecode s (decodeAccepted s) := by
  unfold decodeAccepted
  split
  · exact .decodeFailed ‹_›
  · exact .decoded ‹_›

theorem encryptDrawn_eq (kdf : Kdf) (s : State) :
    encryptDrawn kdf s = encryptTail s.takeDraw (kdf s.mem.pw s.takeDraw.salt) := rfl

theorem encryptDrawn_ends (kdf : Kdf) {s : State} (hd : 40 ≤ s.rng.length) :
    CommandEnds kdf .cmdEncrypt s (encryptDrawn kdf s) := by
  rw [encryptDrawn_eq]
  cases hk : kdf s.mem.pw s.takeDraw.salt with
  | none => exact .encryptFailed hd hk
  | some k => exact .encrypted hd hk rfl

theorem decryptWith_ends (kdf : Kdf) (s : State) : CommandEnds kdf .cmdDecrypt s (decryptWith kdf s) := by
  unfold decryptWith
  split
  · exact .decryptMalformed ‹_›
  · rename_i f hd
    change CommandEnds kdf .cmdDecrypt s (decryptTail (s.takeFields f) (kdf s.mem.pw f.salt))
    cases hk : kdf s.mem.pw f.salt with
    | none => exact .decryptNoKey hd hk
    | some k =>
      simp only [decryptTail]
      split
      · exact .decryptFailed hd hk ‹_›
      · exact .decrypted hd hk ‹_›

/-- A command that has a step ends in one of its endings. -/
theorem exec_ends {i : Instr} {s t : State} (hs : HasStep i s) (h : exec i s = .next t) :
    CommandEnds Config.kdf i s t := by
  cases i with
  | cmdDerive => cases h; exact deriveWith_ends _ s
  | cmdSeal =>
    cases h
    cases hv : s.status.keyValid with
    | true => exact .sealed hv rfl
    | false => exact .sealRefused hv
  | cmdOpen =>
    cases h
    cases hv : s.status.keyValid with
    | true => exact openAccepted_ends _ hv
    | false => exact .openRefused hv
  | cmdEncode => cases h; exact .encoded
  | cmdDecode => cases h; exact decodeAccepted_ends _ s
  | cmdEncrypt =>
    have hd : 40 ≤ s.rng.length := hs rfl
    have e : encryptWith Config.kdf s = encryptDrawn Config.kdf s := if_neg (Nat.not_lt.2 hd)
    cases h
    rw [e]
    exact encryptDrawn_ends _ hd
  | cmdDecrypt => cases h; exact decryptWith_ends _ s

theorem Accepts.hasStep {i : Instr} {s : State} (h : Accepts i s) : HasStep i s := by
  rintro rfl
  exact h

/-! The lengths of what the cipher and the codec answer (41_chacha R107, 30_encoding R76). -/

theorem length_of_aeadSeal {key : Octets 32} {nonce : Octets 24} {pt aad ct : List Byte} {tag : Octets 16}
    (h : aeadSeal key nonce pt aad = (ct, tag)) : ct.length = pt.length := by
  cases h
  exact length_chachaXor _ _ _ _

theorem length_of_aeadOpen {key : Octets 32} {nonce : Octets 24} {ct aad p : List Byte} {tag : Octets 16}
    (h : aeadOpen key nonce ct tag aad = some p) : p.length = ct.length := by
  rcases aeadOpen_cases key nonce ct tag aad with ⟨-, e⟩ | ⟨-, e⟩ <;> rw [e] at h
  · cases h
    exact length_chachaXor _ _ _ _
  · cases h

theorem length_encodeEnvelope_le {salt : Octets 16} {nonce : Octets 24} {ct : List Byte} {tag : Octets 16}
    (h : ct.length ≤ Config.textMax) : (encodeEnvelope salt nonce ct tag).length ≤ Config.envMax := by
  simp [encodeEnvelope, Config.envMax]
  omega

theorem length_ct_of_decodeEnvelope {e : List Byte} {f : EnvelopeFields} (hd : decodeEnvelope e = some f)
    (h : e.length ≤ Config.envMax) : f.ct.length ≤ Config.textMax := by
  unfold decodeEnvelope at hd
  split at hd
  · cases hd
  · cases hd
    simp [Config.envMax] at h ⊢
    omega

section Endings
variable {kdf : Kdf} {i : Instr} {s t : State} (h : CommandEnds kdf i s t)
include h

/-- No ending touches a place outside the columns `writes` and `wipes` of the operand table (30_encoding R72): each
update in it is of a place listed there. -/
theorem CommandEnds.loc_eq {l : Loc} (hl : l ∉ writesOf i ++ wipesOf i) : t.loc l = s.loc l := by
  cases h <;> simp_all [writesOf, wipesOf, State.takeDraw, State.takeFields, State.setFields, State.clearFields,
    State.clearOutputs]

/-- A command takes exactly its draw off the random source and leaves what stands around the core (10_state R33). -/
theorem CommandEnds.around : t.rng = s.rng.drop (drawsOf i) ∧ t.inputs = s.inputs ∧ t.readData = s.readData := by
  cases h <;> simp [drawsOf, State.takeDraw, State.takeFields]

/-- Every ending completes the command (10_state R31) and marks a `KeyDerivationError` in `FATAL` (R32). -/
theorem CommandEnds.completion : t.status.done = true ∧ t.status.busy = false ∧
    t.status.fatal = (s.status.fatal || t.status.err == .keyDerivation) := by
  cases h <;> simp [State.takeDraw, State.takeFields]

/-- What a command can do to the key: keep it with its flag, derive it, or wipe it (10_state R30). -/
theorem CommandEnds.key_cases :
    (t.key = s.key ∧ t.status.keyValid = s.status.keyValid) ∨
    (i = .cmdDerive ∧ kdf s.mem.pw s.salt = some t.key ∧ t.status.keyValid = true ∧ t.status.err = .ok) ∨
    (t.key = zeros 32 ∧ t.status.keyValid = false) := by
  cases h <;> simp_all

/-- A command that consumes the key has wiped it, unless it was refused for want of one (10_state R21). -/
theorem CommandEnds.key_wiped (hc : i ∈ [Instr.cmdSeal, .cmdOpen, .cmdEncrypt, .cmdDecrypt]) (ha : Accepts i s) :
    t.key = zeros 32 ∧ t.status.keyValid = false := by
  cases h <;> simp_all [Accepts]

/-- Working registers are zero after a command that found them so: completion zeroes them and a refusal keeps them
(10_state R40, log entry 8). -/
theorem CommandEnds.noWork (hw : s.work = Work.zero) : t.work = Work.zero := by
  cases h <;> simp [hw]

/-- What a command writes is within capacity when what it reads is (20_memory R53). -/
theorem CommandEnds.wf (hm : s.mem.wf) : t.mem.wf := by
  obtain ⟨hpw, haad, hpt, hct, henv⟩ := hm
  cases h
  case sealed hr =>
    have := length_of_aeadSeal hr
    simp_all [Memory.wf]
  case opened ho =>
    have := length_of_aeadOpen ho
    simp_all [Memory.wf]
  case encoded =>
    have : (encodeEnvelope s.salt s.nonce s.mem.ct s.tag).length ≤ Config.envMax := length_encodeEnvelope_le hct
    simp_all [Memory.wf]
  case decoded hd =>
    have := length_ct_of_decodeEnvelope hd henv
    simp_all [Memory.wf]
  case encrypted ct tag _ _ hr =>
    have hl : ct.length ≤ Config.textMax := (length_of_aeadSeal hr).trans_le hpt
    have := length_encodeEnvelope_le (salt := s.takeDraw.salt) (nonce := s.takeDraw.nonce) (tag := tag) hl
    simp_all [Memory.wf, State.takeDraw]
  case decrypted ho hd _ =>
    have := length_ct_of_decodeEnvelope hd henv
    have := length_of_aeadOpen ho
    simp_all [Memory.wf, State.takeFields]
  all_goals simp_all [Memory.wf, State.takeDraw, State.takeFields]

end Endings

end Sys2Proof.Machine
end

section
/-! How a step ends, said once, and what a host access, a wait and a reset leave; then the invariant. -/

namespace Sys2Proof.Machine

@[simp] theorem State.hostLoad_key (s : State) (b : Buf) (v : List Byte) : (s.hostLoad b v).key = s.key := by
  unfold State.hostLoad; split <;> rfl

@[simp] theorem State.hostLoad_status (s : State) (b : Buf) (v : List Byte) : (s.hostLoad b v).status = s.status := by
  unfold State.hostLoad; split <;> rfl

@[simp] theorem State.hostLoad_work (s : State) (b : Buf) (v : List Byte) : (s.hostLoad b v).work = s.work := by
  unfold State.hostLoad; split <;> rfl

/-- An input that is neither a command nor a reset loads the key, or leaves key, status and working registers as they
are and the buffers within capacity (10_state R43, 20_memory R53). -/
theorem access_cases (s : State) {a : Input} (ha : a ≠ .reset) :
    (∃ v, a = .loadKey v ∧ access s a = s.loadKey v) ∨
    ((access s a).key = s.key ∧ (access s a).status = s.status ∧ (access s a).work = s.work ∧
      (s.mem.wf → (access s a).mem.wf)) := by
  unfold access
  split
  · refine .inr ?_
    cases a with
    | reset => exact absurd rfl ha
    | _ => exact ⟨rfl, rfl, rfl, id⟩
  · cases a with
    | loadKey v => exact .inl ⟨v, rfl, rfl⟩
    | loadBuf b v => exact .inr ⟨s.hostLoad_key b v, s.hostLoad_status b v, s.hostLoad_work b v, State.wf_hostLoad⟩
    | reset => exact absurd rfl ha
    | _ => exact .inr ⟨rfl, rfl, rfl, id⟩

/-- A waiting `ENCRYPT` is ended by the first event from outside, when that is a reset, or changes only the
random source and the pending inputs (60_exceptions R201, 70_reset_and_hazards R221). -/
theorem State.awaitRandom_reset_or_stays (s : State) :
    (∃ before after, s.inputs = before ++ .reset :: after ∧ (∀ a ∈ before, a.isOutside = false) ∧
      s.awaitRandom = { s with inputs := before ++ after }.resetCore) ∨
    ∃ rng inputs, s.awaitRandom = { s with rng := rng, inputs := inputs } := by
  unfold State.awaitRandom
  split
  · exact .inr ⟨_, _, rfl⟩
  · rename_i before after h
    obtain ⟨hi, hb, -⟩ := splitOutside_some h
    exact .inl ⟨before, after, hi, hb, rfl⟩
  · exact .inr ⟨s.rng, _, rfl⟩

/-- How a step ends: one constructor per kind of step. -/
inductive StepEnds (s : State) : State → Prop
  /-- A reset is taken, as the next input or from behind a waiting `ENCRYPT`. -/
  | takesReset {t : State} (h : TakesReset s t) : StepEnds s t
  /-- The core is idle, or `ENCRYPT` waits: nothing of the core changes. -/
  | stays {rng : List Byte} {inputs : List Input} : StepEnds s { s with rng := rng, inputs := inputs }
  /-- A command runs to one of its endings. -/
  | command {i : Instr} {rest : List Input} {t : State} (hi : s.inputs = .writeCmd (encodeWord i) :: rest)
      (he : CommandEnds Config.kdf i { s with inputs := rest } t) : StepEnds s t
  /-- A reserved word is refused. -/
  | reserved {w : BitVec 8} {rest : List Input} (hi : s.inputs = .writeCmd w :: rest) :
      StepEnds s { s with inputs := rest }.refuse
  /-- Any other input is taken. -/
  | access {a : Input} {rest : List Input} (hi : s.inputs = a :: rest) (ha : a ≠ .reset) :
      StepEnds s (access { s with inputs := rest } a)

@[simp] theorem access_reset (s : State) : access s .reset = s.resetCore := by
  unfold access
  split <;> rfl

theorem awaitRandom_ends {s : State} {rest : List Input} (hi : s.inputs = .writeCmd (encodeWord .cmdEncrypt) :: rest)
    (hb : s.status.busy = false) (hr : s.rng.length < 40) :
    StepEnds s { s with inputs := rest }.awaitRandom := by
  rcases State.awaitRandom_reset_or_stays { s with inputs := rest } with
    ⟨before, after, e, hbef, h⟩ | ⟨rng, inputs, h⟩
  · rw [h]
    exact .takesReset (.inr ⟨before, after, hi.trans (congrArg _ e), hbef, hb, hr, rfl⟩)
  · rw [h]
    exact .stays

theorem step_ends {s t : State} (h : step s = .next t) : StepEnds s t := by
  rcases step_cases h with ⟨-, rfl⟩ | ⟨w, rest, i, hi, hb, hd, hx⟩ | ⟨w, rest, hi, rfl⟩ | ⟨a, rest, hi, rfl⟩
  · exact .stays
  · obtain rfl := (decodeWord_eq_ok_iff w i).1 hd
    by_cases hs : HasStep i { s with inputs := rest }
    · exact .command hi (exec_ends hs hx)
    · obtain ⟨rfl, hr⟩ : i = .cmdEncrypt ∧ ¬ 40 ≤ s.rng.length := Classical.not_imp.1 hs
      have e : encryptWith Config.kdf { s with inputs := rest } = { s with inputs := rest }.awaitRandom :=
        if_pos (Nat.not_le.1 hr)
      cases hx
      rw [e]
      exact awaitRandom_ends hi hb (Nat.not_le.1 hr)
  · exact .reserved hi
  · by_cases ha : a = .reset
    · subst ha
      rw [access_reset]
      exact .takesReset (.inl ⟨rest, hi, rfl⟩)
    · exact .access hi ha

/-! The invariant, one lemma per kind of step. -/

section Invariant
variable {s t : State}

/-- Reset sets every field the invariant speaks of (10_state R45). -/
theorem Inv.resetCore (s : State) : Inv s.resetCore where
  memory := Memory.wf_reset
  noStaleKey _ := rfl
  idle := rfl
  noWork := rfl
  fatalMark h := by cases h
  freshErr _ := rfl

/-- A change of nothing but operands, random source, inputs and admitted buffers keeps the invariant. -/
theorem Inv.of_core_eq (h : Inv s) (hk : t.key = s.key) (hst : t.status = s.status) (hw : t.work = s.work)
    (hm : t.mem.wf) : Inv t where
  memory := hm
  noStaleKey := by rw [hk, hst]; exact h.noStaleKey
  idle := by rw [hst]; exact h.idle
  noWork := hw.trans h.noWork
  fatalMark := by rw [hst]; exact h.fatalMark
  freshErr := by rw [hst]; exact h.freshErr

theorem Inv.loadKey (h : Inv s) (k : Octets 32) : Inv (s.loadKey k) where
  memory := h.memory
  noStaleKey hv := by cases hv
  idle := h.idle
  noWork := h.noWork
  fatalMark := h.fatalMark
  freshErr := h.freshErr

theorem Inv.refuse (h : Inv s) : Inv s.refuse where
  memory := h.memory
  noStaleKey := h.noStaleKey
  idle := rfl
  noWork := h.noWork
  fatalMark he := by cases he
  freshErr hd := by cases hd

theorem Inv.access (h : Inv s) {a : Input} (ha : a ≠ .reset) : Inv (access s a) := by
  rcases access_cases s ha with ⟨v, rfl, e⟩ | ⟨hk, hst, hw, hm⟩
  · rw [e]
    exact h.loadKey v
  · exact h.of_core_eq hk hst hw (hm h.memory)

theorem Inv.command (h : Inv s) {kdf : Kdf} {i : Instr} (he : CommandEnds kdf i s t) : Inv t := by
  obtain ⟨hdone, hbusy, hfatal⟩ := he.completion
  exact {
    memory := he.wf h.memory
    noStaleKey := by
      intro hv
      rcases he.key_cases with ⟨hk, hkv⟩ | ⟨-, -, hkv, -⟩ | ⟨hk, -⟩
      · exact hk.trans (h.noStaleKey (hkv.symm.trans hv))
      · exact absurd (hkv.symm.trans hv) (by decide)
      · exact hk
    idle := hbusy
    noWork := he.noWork h.noWork
    fatalMark := by
      intro herr
      rw [hfatal, herr]
      exact Bool.or_true _
    freshErr := fun hd => absurd (hdone.symm.trans hd) (by decide) }

/-- Taking inputs off the list, or random bytes in, concerns nothing the invariant speaks of. -/
theorem Inv.withOutside (h : Inv s) (rng : List Byte) (inputs : List Input) :
    Inv { s with rng := rng, inputs := inputs } :=
  h.of_core_eq rfl rfl rfl h.memory

theorem Inv.step (h : Inv s) (hs : step s = .next t) : Inv t := by
  cases step_ends hs with
  | takesReset hr => rw [hr.core]; exact Inv.resetCore t
  | stays => exact h.withOutside _ _
  | command _ he => exact (h.withOutside s.rng _).command he
  | reserved _ => exact (h.withOutside s.rng _).refuse
  | access _ ha => exact (h.withOutside s.rng _).access ha

end Invariant
end Sys2Proof.Machine
end

section
/-! The statements on the invariant, on the frame and the flags of the commands, and on the life of `FATAL` and of the
key. -/

open Sys2Proof Sys2Proof.Machine

/-- Settles O28: by the kinds of a step, each of which keeps the invariant. -/
theorem everyStepKeepsTheInvariant : Obligations.EveryStepKeepsTheInvariant :=
  fun _ _ h hs => h.step hs

/-- Settles O29: `State.reset` is the reset of itself. -/
theorem invariantHoldsAtReset : Obligations.InvariantHoldsAtReset := Inv.resetCore State.reset

/-- Settles O17: no ending of a command touches a place outside its row of the operand table. -/
theorem commandsChangeOnlyTheirOperands : Obligations.CommandsChangeOnlyTheirOperands := by
  intro i s t hs hx
  have he := exec_ends hs hx
  exact ⟨fun _ hl => he.loc_eq hl, fun b a hl => congrArg (·[a]?) (he.loc_eq hl), he.around⟩

/-- Settles O18: `KEY_VALID` is read off each ending, a refusal being one of a state without a valid key. -/
theorem commandsLeaveTheFlagsAsStated : Obligations.CommandsLeaveTheFlagsAsStated := by
  intro i s t hs hx
  have he := exec_ends hs hx
  obtain ⟨hdone, hbusy, hfatal⟩ := he.completion
  refine ⟨hdone, hbusy, hfatal, ?_⟩
  cases he <;> simp_all

/-- Settles O21: every ending of an accepted consumer of the key wipes it. -/
theorem keyIsWipedByItsConsumers : Obligations.KeyIsWipedByItsConsumers :=
  fun _ _ _ hc ha hx => (exec_ends ha.hasStep hx).key_wiped hc ha

/-- Settles O26: a command can only set `FATAL`, and of the other inputs only a reset reaches it. -/
theorem fatalIsStickyUntilReset : Obligations.FatalIsStickyUntilReset := by
  intro s t hs hf
  cases step_ends hs with
  | takesReset hr => exact .inr hr
  | stays => exact .inl hf
  | command _ he =>
    obtain ⟨-, -, hfatal⟩ := he.completion
    exact .inl (hfatal.trans (by simp [hf]))
  | reserved _ => exact .inl (by simp [hf])
  | @access a rest _ ha =>
    rcases access_cases { s with inputs := rest } ha with ⟨v, rfl, e⟩ | ⟨-, hst, -, -⟩
    · exact .inl (by rw [e]; exact hf)
    · exact .inl (by rw [hst]; exact hf)

/-- Settles O27: of the endings of a command only a `DERIVE` that succeeds raises `KEY_VALID`, and of the other inputs
only a write of `KEY`. -/
theorem keyBecomesValidOnlyByLoadOrDerive : Obligations.KeyBecomesValidOnlyByLoadOrDerive := by
  intro s t hs hv ht
  cases step_ends hs with
  | takesReset hr => rw [hr.core] at ht; cases ht
  | stays => exact absurd (ht.symm.trans hv) (by decide)
  | @command i rest _ hi he =>
    rcases he.key_cases with ⟨-, hkv⟩ | ⟨rfl, hkdf, -, herr⟩ | ⟨-, hkv⟩
    · exact absurd (ht.symm.trans (hkv.trans hv)) (by decide)
    · exact .inr ⟨rest, hi, herr, hkdf⟩
    · exact absurd (ht.symm.trans hkv) (by decide)
  | reserved _ => exact absurd (ht.symm.trans hv) (by decide)
  | @access a rest hi ha =>
    rcases access_cases { s with inputs := rest } ha with ⟨v, rfl, e⟩ | ⟨-, hst, -, -⟩
    · exact .inl ⟨v, rest, hi, by rw [e]; rfl⟩
    · rw [hst] at ht
      exact absurd (ht.symm.trans hv) (by decide)

end

section
/-! The host's side: one equation of the step per kind of input, the layout of `STATUS`, and that no access reveals a
secret. -/

namespace Sys2Proof.Machine

section Step
variable {s : State} {rest : List Input}

/-- An input other than a write of `CMD` is taken off the list and has its effect (20_memory R61). -/
theorem step_of_access {a : Input} (hi : s.inputs = a :: rest) (ha : ∀ w, a ≠ .writeCmd w) :
    step s = .next (access { s with inputs := rest } a) := by
  unfold step fetch
  rw [hi]
  cases a with
  | writeCmd w => exact absurd rfl (ha w)
  | _ => rfl

theorem access_of_idle {a : Input} (hb : s.status.busy = false) : access s a = accessIdle s a := by
  simp [access, hb]

theorem access_of_busy {a : Input} (hb : s.status.busy = true) : access s a = accessBusy s a := by
  simp [access, hb]

theorem step_of_accessIdle {a : Input} (hi : s.inputs = a :: rest) (ha : ∀ w, a ≠ .writeCmd w)
    (hb : s.status.busy = false) : step s = .next (accessIdle { s with inputs := rest } a) :=
  (step_of_access hi ha).trans (congrArg _ (access_of_idle hb))

theorem step_of_accessBusy {a : Input} (hi : s.inputs = a :: rest) (ha : ∀ w, a ≠ .writeCmd w)
    (hb : s.status.busy = true) : step s = .next (accessBusy { s with inputs := rest } a) :=
  (step_of_access hi ha).trans (congrArg _ (access_of_busy hb))

/-- A write of `CMD` while `BUSY = 1` is dropped (10_state R27). -/
theorem step_of_writeCmd_busy {w : BitVec 8} (hi : s.inputs = .writeCmd w :: rest) (hb : s.status.busy = true) :
    step s = .next { s with inputs := rest } := by
  simp [step, fetch, hi, issue, hb]

/-- A write of `CMD` with the word of a command while `BUSY = 0` issues it (10_state R27). -/
theorem step_of_writeCmd {w : BitVec 8} {i : Instr} (hi : s.inputs = .writeCmd w :: rest) (hb : s.status.busy = false)
    (hd : decodeWord w = .ok i) : step s = exec i { s with inputs := rest } := by
  simp [step, fetch, hi, issue, hb, hd]

theorem accessBusy_of_isHostWrite (s : State) {a : Input} (ha : a.isHostWrite = true) : accessBusy s a = s := by
  cases a with
  | read => cases ha
  | random => cases ha
  | reset => cases ha
  | _ => rfl

end Step

section Secrets
variable (s : State) (key : Octets 32) (pw : List Byte) (work : Work)

/-- No read shows `KEY`, the content or the length of `PW`, or a working register (10_state R21, R43). -/
theorem hostRead_withSecrets (item : HostItem) : hostRead (s.withSecrets key pw work) item = hostRead s item := by
  have idle : idleValue (s.withSecrets key pw work) item = idleValue s item := by
    cases item with
    | buf b => cases b <;> rfl
    | len b => cases b <;> rfl
    | _ => rfl
  unfold hostRead
  rw [idle]
  rfl

/-- A write of a buffer other than `PW` leaves what is secret as it was. -/
theorem hostLoad_withSecrets {b : Buf} (hb : b ≠ .pw) (v : List Byte) :
    (s.withSecrets key pw work).hostLoad b v = (s.hostLoad b v).withSecrets key pw work := by
  unfold State.hostLoad
  split
  · cases b with
    | pw => exact absurd rfl hb
    | _ => rfl
  · rfl

/-- A write of `PW` leaves a password of its own, or, when it is not admitted, the one that was there. -/
theorem hostLoad_pw_withSecrets (v : List Byte) : ∃ pw',
    (s.withSecrets key pw work).hostLoad .pw v = (s.hostLoad .pw v).withSecrets key pw' work := by
  unfold State.hostLoad
  split
  · exact ⟨v, rfl⟩
  · exact ⟨pw, rfl⟩

end Secrets
end Sys2Proof.Machine
end

section
/-! The statements on the host's side and on reset. -/

open Sys2Proof Sys2Proof.Machine

/-- Settles O32: a read does not show the secrets, a reset and a load put values of their own in their place, and every
other access leaves them. -/
theorem hostAccessesDoNotRevealSecrets : Obligations.HostAccessesDoNotRevealSecrets := by
  intro s a key pw work
  cases hb : s.status.busy with
  | true =>
    rw [access_of_busy hb, access_of_busy (s := s.withSecrets key pw work) hb]
    cases a with
    | read item => exact ⟨key, pw, work, by rw [accessBusy, hostRead_withSecrets]; rfl⟩
    | reset => exact ⟨zeros 32, [], Work.zero, rfl⟩
    | _ => exact ⟨key, pw, work, rfl⟩
  | false =>
    rw [access_of_idle hb, access_of_idle (s := s.withSecrets key pw work) hb]
    cases a with
    | loadKey v => exact ⟨v, pw, work, rfl⟩
    | loadBuf b v =>
      by_cases hb : b = .pw
      · subst hb
        obtain ⟨pw', e⟩ := hostLoad_pw_withSecrets s key pw work v
        exact ⟨key, pw', work, e⟩
      · exact ⟨key, pw, work, hostLoad_withSecrets s key pw work hb v⟩
    | read item => exact ⟨key, pw, work, by rw [accessIdle, hostRead_withSecrets]; rfl⟩
    | reset => exact ⟨zeros 32, [], Work.zero, rfl⟩
    | _ => exact ⟨key, pw, work, rfl⟩

/-- Settles O4, by the equation of the step on a write of `CMD`. -/
theorem stepRunsTheDecodedCommand : Obligations.StepRunsTheDecodedCommand :=
  fun _ _ _ _ hi hb hd => step_of_writeCmd hi hb hd

/-- Settles O30: the word is put together from its fields in their order. -/
theorem statusWordLayout : Obligations.StatusWordLayout := by
  refine ⟨fun st => ⟨BitVec.extractLsb'_append_eq_right, ?_⟩, rfl, rfl, rfl, rfl, rfl⟩
  simp only [Status.word, BitVec.getLsbD_append]
  simp

/-- Settles O33, one kind of access after the other. -/
theorem hostWritesTakeEffect : Obligations.HostWritesTakeEffect := by
  intro s rest hb
  refine ⟨fun v hi => ?_, fun v hi => ?_, fun v hi => ?_, fun v hi => ?_, fun b v hi hv => ?_, fun w hi => ?_,
    fun b n hi => ?_, fun v hi => ?_⟩ <;> rw [step_of_accessIdle hi (by simp) hb]
  case refine_5 => rw [accessIdle, State.hostLoad, if_pos hv]; rfl
  all_goals rfl

/-- Settles O36, for the write of `CMD`, the other host writes and the reads in turn. -/
theorem busyCoreIgnoresTheHost : Obligations.BusyCoreIgnoresTheHost := by
  intro s rest hb
  refine ⟨fun a ha hi => ?_, fun item hi => ?_⟩
  · cases a with
    | writeCmd w => exact step_of_writeCmd_busy hi hb
    | _ => rw [step_of_accessBusy hi (by simp) hb, accessBusy_of_isHostWrite _ ha]
  · rw [step_of_accessBusy hi (by simp) hb]
    cases item <;> simp [accessBusy, hostRead, hb, zeroValue, idleValue]

/-- Settles O37: the step leaves `State.resetCore`, whose fields are those of the table. -/
theorem resetLeavesTheTable : Obligations.ResetLeavesTheTable := by
  intro s rest hi
  refine ⟨{ s with inputs := rest }.resetCore, ?_, ?_⟩
  · rw [step_of_access hi (by simp), access_reset]
  · have hw : Status.reset.word = 0 := by decide
    refine ⟨?_, ?_, ?_, ?_, hw, fun b => by cases b <;> rfl, ?_, ?_, rfl, ?_, ?_, rfl, rfl, rfl, ?_, rfl, rfl,
      rfl, rfl⟩ <;> simp [Work.zero]

end

section
/-! The buffers: the over-long write, the capacities, and that the codec commands are idempotent. -/

namespace Sys2Proof.Machine

section Admission
variable {b : Buf} {v : List Byte}

/-- A write longer than the capacity is not admitted (20_memory R53). -/
theorem State.hostLoad_of_overlong (s : State) (hv : b.capacity < v.length) : s.hostLoad b v = s :=
  if_neg (Nat.not_le.2 hv)

/-- Whether `BUSY` drops it or admission refuses it, an over-long write leaves the state as it was. -/
theorem access_loadBuf_of_overlong (s : State) (hv : b.capacity < v.length) : access s (.loadBuf b v) = s := by
  cases hb : s.status.busy with
  | true => rw [access_of_busy hb, accessBusy_of_isHostWrite s rfl]
  | false => rw [access_of_idle hb, accessIdle, s.hostLoad_of_overlong hv]

end Admission

/-! The updates of the codec commands done twice, and done after a completion. -/

theorem Status.run_run (st : Status) (e : ErrCode) : (st.run e).run e = st.run e := by
  simp [Status.run_eq_complete, Status.complete]

section Updates
variable (s : State) (e : ErrCode)

theorem State.finish_finish : (s.finish e).finish e = s.finish e := by
  simp [State.finish, Status.run_run]

theorem State.setBuf_setBuf (b : Buf) (v w : List Byte) : (s.setBuf b v).setBuf b w = s.setBuf b w := by
  cases b <;> rfl

theorem State.setBuf_finish (b : Buf) (v : List Byte) : (s.finish e).setBuf b v = (s.setBuf b v).finish e := rfl

theorem State.setFields_setFields (f : EnvelopeFields) : (s.setFields f).setFields f = s.setFields f := rfl

theorem State.setFields_finish (f : EnvelopeFields) : (s.finish e).setFields f = (s.setFields f).finish e := rfl

theorem State.clearFields_clearFields : s.clearFields.clearFields = s.clearFields := rfl

theorem State.clearFields_raise : (s.raise e).clearFields = s.clearFields.raise e := rfl

end Updates

theorem decodeAccepted_of_some {s : State} {f : EnvelopeFields} (hd : decodeEnvelope s.mem.env = some f) :
    decodeAccepted s = (s.setFields f).finish .ok := by
  simp only [decodeAccepted, hd]

theorem decodeAccepted_of_none {s : State} (hd : decodeEnvelope s.mem.env = none) :
    decodeAccepted s = s.clearFields.raise .malformedEnvelope := by
  simp only [decodeAccepted, hd]

/-- `ENCODE` leaves the four fields it reads, so that it writes the same envelope again. -/
theorem encodeAccepted_encodeAccepted (s : State) : encodeAccepted (encodeAccepted s) = encodeAccepted s := by
  change ((encodeAccepted s).setBuf .env (encodeEnvelope s.salt s.nonce s.mem.ct s.tag)).finish .ok = _
  rw [encodeAccepted, State.setBuf_finish, State.setBuf_setBuf, State.finish_finish]

/-- `DECODE` leaves the envelope, so that it finds the same fields, or the same error, again. -/
theorem decodeAccepted_decodeAccepted (s : State) : decodeAccepted (decodeAccepted s) = decodeAccepted s := by
  cases hd : decodeEnvelope s.mem.env with
  | some f =>
    have again : decodeEnvelope ((s.setFields f).finish .ok).mem.env = some f := hd
    rw [decodeAccepted_of_some hd, decodeAccepted_of_some again, State.setFields_finish, State.setFields_setFields,
      State.finish_finish]
  | none =>
    have again : decodeEnvelope (s.clearFields.raise .malformedEnvelope).mem.env = none := hd
    rw [decodeAccepted_of_none hd, decodeAccepted_of_none again, State.clearFields_raise,
      State.clearFields_clearFields]
    exact State.finish_finish _ _

end Sys2Proof.Machine
end

section
/-! The statements on the buffers. -/

open Sys2Proof Sys2Proof.Machine

/-- Settles O47: each of the two commands leaves what it reads, and its updates are the same done twice. -/
theorem codecCommandsAreIdempotent : Obligations.CodecCommandsAreIdempotent := by
  intro i s t hi hx
  simp only [List.mem_cons, List.not_mem_nil, or_false] at hi
  rcases hi with rfl | rfl <;> cases hx
  · exact congrArg Host.Outcome.next (encodeAccepted_encodeAccepted s)
  · exact congrArg Host.Outcome.next (decodeAccepted_decodeAccepted s)

/-- Settles O34: the write is taken off the list and not admitted. -/
theorem overlongWriteHasNoEffect : Obligations.OverlongWriteHasNoEffect := by
  intro s b v rest hi hv
  rw [step_of_access hi (by simp), access_loadBuf_of_overlong _ hv]

/-- Settles O35: the bounds are those of the types of the two free capacities. -/
theorem capacitiesAreBounded : Obligations.CapacitiesAreBounded :=
  ⟨Nat.le_of_lt_succ Config.textCapacity.isLt, rfl, Config.aadCapacity.isLt, rfl⟩

end

section
/-! The decoder read by the number of the word: the words 1 to 7 are the seven rows of the table, every other word is
reserved. -/

namespace Sys2Proof

/-- The commands in the order of the table (30_encoding R71). -/
def commandRows : List Instr :=
  [.cmdDerive, .cmdSeal, .cmdOpen, .cmdEncode, .cmdDecode, .cmdEncrypt, .cmdDecrypt]

theorem encodeWord_of_row : ∀ n < 8, n ≠ 0 → commandRows[n - 1]?.map encodeWord = some (BitVec.ofNat 8 n) := by
  decide

theorem encodeWord_ne_zero_and_lt (i : Instr) : encodeWord i ≠ 0 ∧ (encodeWord i).toNat < 8 := by
  cases i <;> decide

/-- The `zero` field is the number of eights in the word (30_encoding R70). -/
theorem zeroField_eq_zero_iff (w : BitVec 8) : w.extractLsb' 3 5 = 0 ↔ w.toNat < 8 := by
  have := w.isLt
  rw [BitVec.toNat_eq, BitVec.extractLsb'_toNat, Nat.shiftRight_eq_div_pow]
  change w.toNat / 8 % 32 = 0 ↔ _
  omega

/-- The `op` field is what the eights leave (30_encoding R70). -/
theorem opField_toNat (w : BitVec 8) : (w.extractLsb' 0 3).toNat = w.toNat % 8 := by
  simp

theorem opField_eq_zero_iff {w : BitVec 8} (hw : w.toNat < 8) : w.extractLsb' 0 3 = 0 ↔ w = 0 := by
  rw [BitVec.toNat_eq, BitVec.toNat_eq, opField_toNat, Nat.mod_eq_of_lt hw]
  rfl

/-- Reserved in the terms of the fields is reserved in the terms of the number (30_encoding R73, R88). -/
theorem reservedFields_iff (w : BitVec 8) :
    (w.extractLsb' 3 5 ≠ 0 ∨ w.extractLsb' 0 3 = 0) ↔ w = 0 ∨ 8 ≤ w.toNat := by
  rw [ne_eq, zeroField_eq_zero_iff, Nat.not_lt, or_comm]
  by_cases hw : 8 ≤ w.toNat
  · simp only [hw, or_true]
  · rw [opField_eq_zero_iff (Nat.not_le.1 hw)]

namespace Machine

/-- A word from 1 to 7 is the command of its row (30_encoding R88). -/
theorem decodeWord_of_row {w : BitVec 8} (h0 : w ≠ 0) (hw : w.toNat < 8) :
    ∃ i, commandRows[w.toNat - 1]? = some i ∧ decodeWord w = .ok i := by
  have hn : w.toNat ≠ 0 := fun e => h0 (BitVec.eq_of_toNat_eq e)
  obtain ⟨i, hi, he⟩ := Option.map_eq_some_iff.1 (encodeWord_of_row w.toNat hw hn)
  refine ⟨i, hi, (decodeWord_eq_ok_iff w i).2 ?_⟩
  rw [he, BitVec.ofNat_toNat, BitVec.setWidth_eq]

/-- Every other word is reserved (30_encoding R73). -/
theorem decodeWord_of_reserved {w : BitVec 8} (h : w = 0 ∨ 8 ≤ w.toNat) : ∃ e, decodeWord w = .error e := by
  cases hd : decodeWord w with
  | error e => exact ⟨e, rfl⟩
  | ok i =>
    obtain rfl := (decodeWord_eq_ok_iff w i).1 hd
    obtain ⟨h0, h8⟩ := encodeWord_ne_zero_and_lt i
    exact absurd h (not_or.2 ⟨h0, Nat.not_le.2 h8⟩)

/-- The step on a reserved word while `BUSY = 0` is the refusal (30_encoding R73, 60_exceptions R195). -/
theorem step_of_reserved {s : State} {w : BitVec 8} {rest : List Input} {e : DecodeError}
    (hi : s.inputs = .writeCmd w :: rest) (hb : s.status.busy = false) (hd : decodeWord w = .error e) :
    step s = .next { s with inputs := rest }.refuse := by
  simp [step, fetch, hi, issue, hb, hd]

/-- A refusal while `BUSY = 0` leaves a code and `DONE` (60_exceptions R195). -/
theorem State.refuse_of_idle {s : State} (hb : s.status.busy = false) :
    s.refuse = { s with status := { s.status with err := .command, done := true } } := by
  simp [State.refuse, Status.run_eq_complete, Status.complete, hb]

end Machine
end Sys2Proof
end

section
/-! The MAC input: a part with its padding fills blocks, and the layout follows from the lengths. -/

namespace Sys2Proof.Machine

theorem leNum_le64 {n : Nat} (h : n < 2 ^ 64) : leNum (le64 n) = n :=
  (leNum_toLe n 8).trans (Nat.mod_eq_of_lt h)

/-- A part and its padding end at the next multiple of 16 (30_encoding R85). -/
theorem length_append_pad16 (x : List Byte) : (x ++ pad16 x).length = 16 * ((x.length + 15) / 16) := by
  rw [List.length_append, length_pad16]
  omega

/-- Behind a part, up to the next multiple of 16, there are zeros (30_encoding R85). -/
theorem getElem?_append_pad16 {x : List Byte} {j : Nat} (hx : x.length ≤ j) (hj : j < 16 * ((x.length + 15) / 16)) :
    (x ++ pad16 x)[j]? = some 0 := by
  rw [List.getElem?_append_right hx, pad16, List.getElem?_replicate, if_pos (by omega)]

/-- The MAC input as three: a padded part, a padded part, the lengths. -/
theorem macData_eq (aad ct : List Byte) : macData aad ct =
    (aad ++ pad16 aad) ++ ((ct ++ pad16 ct) ++ (le64 aad.length ++ le64 ct.length)) := by
  simp [macData]

/-- A message of whole blocks is cut into blocks of 16 bytes (42_poly1305 R122). -/
theorem length_of_mem_polyBlocks {m b : List Byte} (hm : 16 ∣ m.length) (hb : b ∈ polyBlocks m) : b.length = 16 := by
  obtain ⟨j, hj, rfl⟩ := List.mem_map.1 hb
  rw [List.mem_range] at hj
  rw [List.length_take, List.length_drop]
  omega

end Sys2Proof.Machine
end

section
/-! The composites: a completed step leaves no trace in the command that follows it, so that a chain of commands is one
chain of updates with one completion (30_encoding R87). -/

namespace Sys2Proof.Machine

section Chains
variable (s : State) (e : ErrCode)

theorem Status.run_ok_run (st : Status) (e : ErrCode) : (st.run .ok).run e = st.run e := by
  have hf : (st.fatal || ErrCode.ok == .keyDerivation) = st.fatal := Bool.or_false _
  simp only [Status.run_eq_complete, Status.complete, hf]

theorem State.finish_ok_finish : (s.finish .ok).finish e = s.finish e := by
  simp [State.finish, Status.run_ok_run]

theorem deriveWith_finish_ok (kdf : Kdf) : deriveWith kdf (s.finish .ok) = deriveWith kdf s := by
  unfold deriveWith
  rw [State.finish_mem, State.finish_salt]
  cases kdf s.mem.pw s.salt with
  | none => exact State.finish_ok_finish (s.wipeBuf .pw).wipeKey .keyDerivation
  | some k => exact State.finish_ok_finish ((s.wipeBuf .pw).loadKey k) .ok

theorem sealAccepted_of_eq {s : State} {ct : List Byte} {tag : Octets 16}
    (hr : aeadSeal s.key s.nonce s.mem.pt s.mem.aad = (ct, tag)) :
    sealAccepted s = ((s.setBuf .ct ct).setTag tag).wipeKey.finish .ok := by
  simp only [sealAccepted, hr]

theorem sealAccepted_finish_ok : sealAccepted (s.finish .ok) = sealAccepted s := by
  rcases hr : aeadSeal s.key s.nonce s.mem.pt s.mem.aad with ⟨ct, tag⟩
  rw [sealAccepted_of_eq hr, sealAccepted_of_eq (s := s.finish .ok) hr]
  exact State.finish_ok_finish ((s.setBuf .ct ct).setTag tag).wipeKey .ok

theorem encodeAccepted_finish_ok : encodeAccepted (s.finish .ok) = encodeAccepted s :=
  State.finish_ok_finish (s.setBuf .env (encodeEnvelope s.salt s.nonce s.mem.ct s.tag)) .ok

theorem openAccepted_finish_ok : openAccepted (s.finish .ok) = openAccepted s := by
  unfold openAccepted
  simp only [State.finish_key, State.finish_nonce, State.finish_mem, State.finish_tag]
  cases aeadOpen s.key s.nonce s.mem.ct s.tag s.mem.aad with
  | none => exact State.finish_ok_finish (s.wipeKey.wipeBuf .pt) .authentication
  | some p => exact State.finish_ok_finish (s.wipeKey.setBuf .pt p) .ok

end Chains

section Endings
variable {kdf : Kdf} {s : State}

theorem deriveWith_of_some {k : Octets 32} (hk : kdf s.mem.pw s.salt = some k) :
    deriveWith kdf s = ((s.wipeBuf .pw).loadKey k).finish .ok := by
  simp only [deriveWith, hk]

theorem deriveWith_of_none (hk : kdf s.mem.pw s.salt = none) :
    deriveWith kdf s = (s.wipeBuf .pw).wipeKey.raise .keyDerivation := by
  simp only [deriveWith, hk]

theorem openAccepted_of_some {p : List Byte} (ho : aeadOpen s.key s.nonce s.mem.ct s.tag s.mem.aad = some p) :
    openAccepted s = (s.wipeKey.setBuf .pt p).finish .ok := by
  simp only [openAccepted, ho]

theorem openAccepted_of_none (ho : aeadOpen s.key s.nonce s.mem.ct s.tag s.mem.aad = none) :
    openAccepted s = (s.wipeKey.wipeBuf .pt).raise .authentication := by
  simp only [openAccepted, ho]

/-- On a draw `salt || nonce`, what `ENCRYPT` has taken when it asks for its key (45_public R171). -/
theorem State.takeDraw_of_rng {salt : Octets 16} {nonce : Octets 24} {rest : List Byte}
    (hr : s.rng = salt.toList ++ nonce.toList ++ rest) :
    s.takeDraw = ({ s with salt, nonce, rng := rest, mem := { s.mem with aad := [] } } : State).wipeBuf .pw := by
  have hsalt : octets 16 s.rng = salt := by rw [hr, List.append_assoc, octets_append]
  have hdrop : s.rng.drop 16 = nonce.toList ++ rest := by rw [hr, List.append_assoc, List.drop_left' (by simp)]
  have hrest : s.rng.drop 40 = rest := by rw [hr, List.drop_left' (by simp)]
  have hdraw : (s.wipeBuf .aad).dropRandom 40 = { s.wipeBuf .aad with rng := rest } := by
    rw [State.dropRandom, State.wipeBuf_rng, hrest]
  unfold State.takeDraw
  rw [hdraw, hsalt, hdrop, octets_append]
  rfl

/-- `SEAL` with a loaded key, then `ENCODE`: the completion between them leaves no trace. -/
theorem encodeAccepted_sealAccepted_loadKey {k : Octets 32} {ct : List Byte} {tag : Octets 16}
    (hr : aeadSeal k s.nonce s.mem.pt s.mem.aad = (ct, tag)) :
    encodeAccepted (sealAccepted (s.loadKey k)) =
      (((s.setBuf .ct ct).setTag tag).setBuf .env (encodeEnvelope s.salt s.nonce ct tag)).wipeKey.finish .ok := by
  rw [sealAccepted_of_eq (s := s.loadKey k) hr, encodeAccepted_finish_ok]
  rfl

end Endings
end Sys2Proof.Machine
end

section
/-! The statements on the encoding, the MAC input and the composite commands. -/

open Sys2Proof Sys2Proof.Machine

/-- Settles O44: the parts are found by their lengths, which the paddings make multiples of 16. -/
theorem macInputIsFullBlocks : Obligations.MacInputIsFullBlocks := by
  intro aad ct m a c hm ha hc
  rw [macData_eq] at hm
  have hA : (aad ++ pad16 aad).length = a := (length_append_pad16 aad).trans ha.symm
  have hC : (ct ++ pad16 ct).length = c := (length_append_pad16 ct).trans hc.symm
  have hlen : m.length = a + c + 16 := by
    rw [hm, List.length_append, hA, List.length_append, hC, List.length_append, length_le64, length_le64,
      Nat.add_assoc]
  have hdropA : m.drop a = (ct ++ pad16 ct) ++ (le64 aad.length ++ le64 ct.length) := by
    rw [hm, List.drop_left' hA]
  have hdropC : m.drop (a + c) = le64 aad.length ++ le64 ct.length := by
    rw [← List.drop_drop, hdropA, List.drop_left' hC]
  refine ⟨hlen, ?_, fun j hj hja => ?_, ?_, fun j hj hjc => ?_, fun h => ?_, fun h => ?_, fun b hb => ?_⟩
  · rw [hm, List.append_assoc, List.take_left]
  · rw [hm, List.getElem?_append_left (hja.trans_eq hA.symm)]
    exact getElem?_append_pad16 hj (hja.trans_eq ha)
  · rw [hdropA, List.append_assoc, List.take_left]
  · obtain ⟨k, rfl⟩ := Nat.exists_eq_add_of_le ((Nat.le_add_right a _).trans hj)
    have hk : k < c := Nat.lt_of_add_lt_add_left hjc
    rw [← List.getElem?_drop, hdropA, List.getElem?_append_left (hk.trans_eq hC.symm)]
    exact getElem?_append_pad16 (Nat.le_of_add_le_add_left hj) (hk.trans_eq hc)
  · rw [hdropC, List.take_left' (length_le64 _), leNum_le64 h]
  · rw [← List.drop_drop, hdropC, List.drop_left' (length_le64 _), leNum_le64 h]
  · exact length_of_mem_polyBlocks (by omega) hb

/-- Settles O57, one ending of `ENCRYPT` after the other: with a key the completions between the commands leave no
trace; without one `DERIVE` leaves all but the outputs. -/
theorem encryptIsTheComposite : Obligations.EncryptIsTheComposite := by
  intro kdf s d salt nonce rest hr hd
  have hlen : 40 ≤ s.rng.length := by simp only [hr, List.length_append, Vector.length_toList]; omega
  have he : CommandEnds kdf .cmdEncrypt s (encryptWith kdf s) := by
    rw [show encryptWith kdf s = encryptDrawn kdf s from if_neg (Nat.not_lt.2 hlen)]
    exact encryptDrawn_ends kdf hlen
  have ht := State.takeDraw_of_rng hr
  generalize encryptWith kdf s = t at he ⊢
  cases he with
  | encrypted _ hk hs =>
    rw [ht] at hk hs ⊢
    replace hd := hd.trans (deriveWith_of_some hk)
    subst hd
    refine ⟨fun _ => ?_, fun h => absurd rfl h⟩
    rw [sealAccepted_finish_ok]
    exact (encodeAccepted_sealAccepted_loadKey hs).symm
  | encryptFailed _ hk =>
    rw [ht] at hk ⊢
    replace hd := hd.trans (deriveWith_of_none hk)
    subst hd
    exact ⟨nofun, fun _ => rfl⟩

/-- Settles O58, one ending of `DECRYPT` after the other, each of which is the end of one of the three steps. -/
theorem decryptIsTheComposite : Obligations.DecryptIsTheComposite := by
  intro kdf s a d ha hd
  have he := decryptWith_ends kdf s
  generalize decryptWith kdf s = t at he ⊢
  cases he with
  | decryptMalformed hf =>
    replace ha := ha.trans (decodeAccepted_of_none hf)
    subst ha
    exact ⟨fun _ => rfl, nofun, nofun, nofun⟩
  | decryptNoKey hf hk =>
    replace ha := ha.trans (decodeAccepted_of_some hf)
    rw [ha, deriveWith_finish_ok, deriveWith_of_none hk] at hd
    subst ha hd
    exact ⟨fun h => absurd rfl h, fun _ _ => rfl, nofun, nofun⟩
  | decryptFailed hf hk ho =>
    replace ha := ha.trans (decodeAccepted_of_some hf)
    rw [ha, deriveWith_finish_ok, deriveWith_of_some hk] at hd
    have hopen := (congrArg openAccepted hd).trans ((openAccepted_finish_ok _).trans (openAccepted_of_none ho))
    rw [hopen]
    subst ha hd
    exact ⟨fun h => absurd rfl h, fun _ h => absurd rfl h, nofun, fun _ _ _ => rfl⟩
  | decrypted hf hk ho =>
    replace ha := ha.trans (decodeAccepted_of_some hf)
    rw [ha, deriveWith_finish_ok, deriveWith_of_some hk] at hd
    have hopen := (congrArg openAccepted hd).trans ((openAccepted_finish_ok _).trans (openAccepted_of_some ho))
    rw [hopen]
    subst ha hd
    exact ⟨fun h => absurd rfl h, fun _ h => absurd rfl h, fun _ _ _ => rfl, fun _ _ h => absurd rfl h⟩

/-- Settles O1: the one word of the encoding decodes to its command. -/
theorem decodeOfEncodeIsTheCommand : Obligations.DecodeOfEncodeIsTheCommand := by
  intro i rest
  have hd : decodeWord (encodeWord i) = .ok i := (decodeWord_eq_ok_iff _ i).2 rfl
  simp only [encode, List.singleton_append, decode, hd]

/-- Settles O2: both fields are read off the number of the word. -/
theorem decodingFollowsTheProcedure : Obligations.DecodingFollowsTheProcedure := by
  intro w
  refine ⟨fun h => decodeWord_of_reserved ((reservedFields_iff w).1 h), fun hz hop => ?_⟩
  have hw := (zeroField_eq_zero_iff w).1 hz
  obtain ⟨i, hi, hd⟩ := decodeWord_of_row (mt (opField_eq_zero_iff hw).2 hop) hw
  rw [opField_toNat, Nat.mod_eq_of_lt hw]
  exact ⟨i, hd, hi⟩

/-- Settles O3, by running the decoder on each word. -/
theorem sampleWordsDecode : Obligations.SampleWordsDecode := by
  unfold Obligations.SampleWordsDecode
  decide

/-- Settles O5: the step on a reserved word is the refusal, and a word from 1 to 7 is a command's. -/
theorem reservedWordIsRefused : Obligations.ReservedWordIsRefused := by
  refine ⟨fun s w rest hi hb hw => ?_, fun w => ?_⟩
  · obtain ⟨e, hd⟩ := decodeWord_of_reserved hw
    exact (step_of_reserved hi hb hd).trans (congrArg _ (State.refuse_of_idle hb))
  · by_cases hw : w = 0 ∨ 8 ≤ w.toNat
    · exact .inr hw
    · obtain ⟨h0, h8⟩ := not_or.1 hw
      obtain ⟨i, -, hd⟩ := decodeWord_of_row h0 (Nat.not_le.1 h8)
      exact .inl ⟨i, hd, congrArg (fun w => [w]) ((decodeWord_eq_ok_iff w i).1 hd).symm⟩

end

section
/-! The round trip: the comparator on equal tags, `open` after `seal`, `decode` after `encode`, and `DECRYPT` of an
envelope that `ENCRYPT` made. -/

namespace Sys2Proof.Machine

/-- Equal byte positions add nothing to the comparator's accumulator (42_poly1305 R130). -/
theorem foldl_ctStep_zip_self (l : List Byte) (run : CtRun) : ((l.zip l).foldl ctStep run).diff = run.diff := by
  induction l generalizing run with
  | nil => rfl
  | cons b l ih => simp [ih, ctStep]

@[simp] theorem ctEq_self (a : Octets 16) : ctEq a a = true :=
  beq_iff_eq.2 (foldl_ctStep_zip_self a.toList ⟨0, 0⟩)

/-- The cipher is its own inverse: the keystream depends on the length of the text alone (41_chacha R107). -/
theorem chachaXor_chachaXor (k : Octets 32) (c0 : Word) (n : Octets 12) (m : List Byte) :
    chachaXor k c0 n (chachaXor k c0 n m) = m := by
  have hlen : m.length ≤ (keystream k c0 n ((m.length + 63) / 64)).length := by
    rw [length_keystream]
    omega
  rw [chachaXor, length_chachaXor, chachaXor, xorBytes_xorBytes hlen]

/-- `open` gives back what `seal` took (43_aead R147). -/
theorem aeadOpen_of_aeadSeal {key : Octets 32} {nonce : Octets 24} {pt aad ct : List Byte} {tag : Octets 16}
    (h : aeadSeal key nonce pt aad = (ct, tag)) : aeadOpen key nonce ct tag aad = some pt := by
  cases h
  rw [aeadOpen, if_pos (ctEq_self _)]
  exact congrArg some (chachaXor_chachaXor _ 1 _ pt)

/-- `decode` gives back the four fields that `encode` put together (44_envelope R162). -/
theorem decodeEnvelope_encodeEnvelope (salt : Octets 16) (nonce : Octets 24) (ct : List Byte) (tag : Octets 16) :
    decodeEnvelope (encodeEnvelope salt nonce ct tag) = some ⟨salt, nonce, ct, tag⟩ := by
  have hlen : (encodeEnvelope salt nonce ct tag).length = ct.length + 56 := by
    simp [encodeEnvelope]
    omega
  have heq : encodeEnvelope salt nonce ct tag = salt.toList ++ (nonce.toList ++ (ct ++ tag.toList)) := by
    simp [encodeEnvelope]
  have hsalt : octets 16 (encodeEnvelope salt nonce ct tag) = salt := by rw [heq, octets_append]
  have hnonce : (encodeEnvelope salt nonce ct tag).drop 16 = nonce.toList ++ (ct ++ tag.toList) := by
    rw [heq, List.drop_left' (by simp)]
  have hct : (encodeEnvelope salt nonce ct tag).drop 40 = ct ++ tag.toList := by
    rw [← List.drop_drop (i := 24) (j := 16), hnonce, List.drop_left' (by simp)]
  have htag : (encodeEnvelope salt nonce ct tag).drop (ct.length + 56 - 16) = tag.toList := by
    rw [show ct.length + 56 - 16 = 40 + ct.length by omega, ← List.drop_drop, hct, List.drop_left]
  rw [decodeEnvelope, if_neg (by simp [hlen, minEnvelope]), hlen, hsalt, hnonce, octets_append, hct,
    Nat.add_sub_cancel, List.take_left, htag, octets_toList]

section Endings
variable {kdf : Kdf} {s : State}

theorem encryptWith_ends (kdf : Kdf) (hd : 40 ≤ s.rng.length) :
    CommandEnds kdf .cmdEncrypt s (encryptWith kdf s) := by
  rw [encryptWith, if_neg (Nat.not_lt.2 hd)]
  exact encryptDrawn_ends kdf hd

theorem decryptWith_of_open {f : EnvelopeFields} {k : Octets 32} {p : List Byte}
    (hd : decodeEnvelope s.mem.env = some f) (hk : kdf s.mem.pw f.salt = some k)
    (ho : aeadOpen k f.nonce f.ct f.tag [] = some p) :
    decryptWith kdf s = ((s.takeFields f).wipeKey.setBuf .pt p).finish .ok := by
  simp [decryptWith, hd, hk, decryptTail, ho, State.takeFields]

/-- With the password and the envelope of an `ENCRYPT` that ended with `OK`, whatever the rest of the state is,
`DECRYPT` derives the same key and opens what was sealed (45_public R176). -/
theorem decryptWith_of_encrypted {t u : State} (he : CommandEnds kdf .cmdEncrypt s t) (hok : t.status.err = .ok)
    (hpw : u.mem.pw = s.mem.pw) (henv : u.mem.env = t.mem.env) :
    (decryptWith kdf u).mem.pt = s.mem.pt ∧ (decryptWith kdf u).status.err = .ok := by
  cases he with
  | encryptFailed _ _ => cases hok
  | encrypted _ hk hr =>
    have hd := (congrArg decodeEnvelope henv).trans (decodeEnvelope_encodeEnvelope _ _ _ _)
    rw [← hpw] at hk
    rw [decryptWith_of_open hd hk (aeadOpen_of_aeadSeal hr)]
    exact ⟨rfl, rfl⟩

/-- `ENCRYPT` fails only when `KDF` does (40_kdu R93). -/
theorem CommandEnds.encrypt_ok {t : State} (h : CommandEnds kdf .cmdEncrypt s t) (hkdf : KdfNeverFails kdf) :
    t.status.err = .ok := by
  cases h with
  | encryptFailed _ hk => exact absurd hk (hkdf _ _)
  | encrypted => rfl

/-- Every ending of a command that reads the password has wiped it (40_kdu R94, 70_reset_and_hazards R226). -/
theorem CommandEnds.pw_wiped {i : Instr} {t : State} (h : CommandEnds kdf i s t)
    (hc : i ∈ [Instr.cmdDerive, .cmdEncrypt, .cmdDecrypt]) : t.mem.pw = [] := by
  cases h with
  | sealed | sealRefused | opened | openFailed | openRefused | encoded | decoded | decodeFailed =>
    exact absurd hc (by decide)
  | _ => rfl

end Endings

theorem Status.run_ok (st : Status) :
    st.run .ok = { err := .ok, keyValid := st.keyValid, done := true, busy := false, fatal := st.fatal } :=
  congrArg (Status.mk _ _ _ _) (Bool.or_false _)

theorem Status.run_keyDerivation (st : Status) : st.run .keyDerivation =
    { err := .keyDerivation, keyValid := st.keyValid, done := true, busy := false, fatal := true } :=
  congrArg (Status.mk _ _ _ _) (Bool.or_true _)

end Sys2Proof.Machine
end

section
/-! The statements on key derivation. -/

open Sys2Proof Sys2Proof.Machine

/-- Settles O22: every ending of a command that reads the password wipes it. -/
theorem passwordIsWipedByItsConsumers : Obligations.PasswordIsWipedByItsConsumers :=
  fun _ _ _ hc hs hx => (exec_ends hs hx).pw_wiped hc

/-- Settles O55: with a `KDF` that never fails `ENCRYPT` ends with `OK`, and `DECRYPT` undoes an `ENCRYPT` that does. -/
theorem roundTripOfAHealthyBuild : Obligations.RoundTripOfAHealthyBuild := by
  intro kdf hkdf s hlen
  have he := encryptWith_ends kdf hlen
  have hok := he.encrypt_ok hkdf
  obtain ⟨hpt, herr⟩ := decryptWith_of_encrypted (u := (encryptWith kdf s).setBuf .pw s.mem.pw) he hok rfl rfl
  exact ⟨hok, herr, hpt⟩

/-- Settles O59: the meanings of the three commands in `exec` are these. -/
theorem commandsRunTheConfiguredKdf : Obligations.CommandsRunTheConfiguredKdf :=
  fun _ => ⟨rfl, rfl, rfl⟩

/-- Settles O8, for each answer of `KDF`: the status is that of the completion with its code. -/
theorem deriveCommand : Obligations.DeriveCommand := by
  intro s
  obtain ⟨hexec, -, -⟩ := commandsRunTheConfiguredKdf s
  rw [hexec]
  cases hk : Config.kdf s.mem.pw s.salt with
  | some k =>
    rw [deriveWith_of_some hk, State.finish, Status.run_ok]
    rfl
  | none =>
    rw [deriveWith_of_none hk, State.raise, State.finish, Status.run_keyDerivation]
    rfl

end

section
/-! The stream cipher: the quarter round as four steps that can each be undone, and the keystream byte by byte. -/

namespace Sys2Proof.Machine

theorem rotateRight_rotateLeft {w : Nat} (x : BitVec w) (r : Nat) : (x.rotateLeft r).rotateRight r = x := by
  apply BitVec.eq_of_getElem_eq
  intro i hi
  have hr : r % w < w := Nat.mod_lt r (by omega)
  rw [BitVec.getElem_rotateRight]
  split
  · rw [BitVec.getElem_rotateLeft, dif_neg (by omega)]
    simp only [Nat.add_sub_cancel_left]
  · rw [BitVec.getElem_rotateLeft, dif_pos (by omega)]
    congr 1
    omega

/-- One of the four lines of the quarter round, an addition, an exclusive or and a rotation by `r` (41_chacha R101),
with the words then renamed so that the next line is the same map with another `r`. -/
def arxStep (r : Nat) : Word × Word × Word × Word → Word × Word × Word × Word
  | (a, b, c, d) => (c, (d ^^^ (a + b)).rotateLeft r, a + b, b)

/-- The map that undoes `arxStep r`. -/
def arxUnstep (r : Nat) : Word × Word × Word × Word → Word × Word × Word × Word
  | (c, d, a, b) => (a - b, b, c, d.rotateRight r ^^^ a)

theorem arxUnstep_arxStep (r : Nat) : Function.LeftInverse (arxUnstep r) (arxStep r) := by
  intro ⟨a, b, c, d⟩
  simp [arxUnstep, arxStep, rotateRight_rotateLeft]

/-- What can be undone is injective, and on finitely many words that is enough. -/
theorem arxStep_bijective (r : Nat) : Function.Bijective (arxStep r) :=
  Finite.injective_iff_bijective.1 (arxUnstep_arxStep r).injective

/-- The twelve assignments of 41_chacha R101 are four lines with the rotations 16, 12, 8 and 7. -/
theorem quarterRound_eq_arxSteps (p : Word × Word × Word × Word) :
    quarterRound p.1 p.2.1 p.2.2.1 p.2.2.2 = arxStep 7 (arxStep 8 (arxStep 12 (arxStep 16 p))) := rfl

/-- Keystream byte `i` is byte `i mod 64` of block `i / 64` (41_chacha R107, 30_encoding R82). -/
theorem getElem?_keystream (k : Octets 32) (c0 : Word) (n : Octets 12) {nb i : Nat} (hi : i < 64 * nb) :
    (keystream k c0 n nb)[i]? =
      some ((chachaBlock k (c0 + BitVec.ofNat 32 (i / 64)) n).toList.getD (i % 64) 0) := by
  induction nb with
  | zero => omega
  | succ nb ih =>
    rw [keystream_succ]
    by_cases hlt : i < 64 * nb
    · rw [List.getElem?_append_left (by simpa using hlt), ih hlt]
    · have hdiv : i / 64 = nb := by omega
      have hmod : i - 64 * nb = i % 64 := by omega
      have hbound : i % 64 < (chachaBlock k (c0 + BitVec.ofNat 32 nb) n).toList.length := by
        simpa using Nat.mod_lt i (by decide)
      rw [List.getElem?_append_right (by simpa using hlt), length_keystream, hmod, hdiv,
        List.getElem?_eq_getElem hbound, List.getD_eq_getElem _ _ hbound]

/-- Byte `i` of the output is byte `i` of the message against keystream byte `i` (41_chacha R107). -/
theorem getElem?_chachaXor (k : Octets 32) (c0 : Word) (n : Octets 12) (m : List Byte) (i : Nat) :
    (chachaXor k c0 n m)[i]? =
      m[i]?.map fun b => b ^^^ (chachaBlock k (c0 + BitVec.ofNat 32 (i / 64)) n).toList.getD (i % 64) 0 := by
  rw [chachaXor, xorBytes, List.getElem?_zipWith]
  by_cases hi : i < m.length
  · rw [getElem?_keystream k c0 n (by omega), List.getElem?_eq_getElem hi]
    rfl
  · rw [List.getElem?_eq_none (Nat.not_lt.1 hi)]
    rfl

end Sys2Proof.Machine
end

section
/-! The statements on the stream cipher. -/

open Sys2Proof Sys2Proof.Machine

/-- Settles O38: the quarter round is four steps, each of which can be undone. -/
theorem quarterRoundIsBijective : Obligations.QuarterRoundIsBijective := by
  unfold Obligations.QuarterRoundIsBijective
  simp only [quarterRound_eq_arxSteps]
  exact (arxStep_bijective 7).comp <| (arxStep_bijective 8).comp <| (arxStep_bijective 12).comp (arxStep_bijective 16)

/-- Settles O39: the keystream byte by byte, and the inverse of the cipher. -/
theorem cipherIsTheBytewiseLoop : Obligations.CipherIsTheBytewiseLoop :=
  fun k c0 n m => ⟨getElem?_chachaXor k c0 n m, chachaXor_chachaXor k c0 n m⟩

/-- Settles O40: XChaCha20 is the cipher under the derived key and nonce. -/
theorem cipherIsAnInvolution : Obligations.CipherIsAnInvolution :=
  fun _ _ _ _ => ⟨length_chachaXor _ _ _ _, chachaXor_chachaXor _ _ _ _⟩

end

section
/-! The MAC engine: the multiplier, the accumulator as a polynomial, the finalization, and the comparator. -/

namespace Sys2Proof.Machine

/-- A bit that the mask clears is zero in the multiplier (30_encoding R83). -/
theorem polyR_getLsbD_of_clampMask {k1 : Octets 32} {i : Nat} (h : clampMask.getLsbD i = false) :
    (polyR k1).getLsbD i = false := by
  rw [polyR, BitVec.getLsbD_and, h, Bool.and_false]

/-- The multiplier is at most its mask (42_poly1305 R121). -/
theorem polyR_toNat_le (k1 : Octets 32) : (polyR k1).toNat ≤ clampMask.toNat := by
  rw [polyR, BitVec.toNat_and]
  exact Nat.and_le_right

/-- Horner's rule: one more block raises every power of the multiplier by one, and the reductions on the way do not
change the remainder (42_poly1305 R123). -/
theorem foldl_polyStep_range (r : Nat) (b : Nat → List Byte) (n : Nat) :
    ((List.range n).map b).foldl (polyStep r) 0 =
      (∑ j ∈ Finset.range n, blockNum (b j) * r ^ (n - j)) % p1305 := by
  induction n with
  | zero => rfl
  | succ n ih =>
    have hshift : ∑ j ∈ Finset.range n, blockNum (b j) * r ^ (n + 1 - j) =
        (∑ j ∈ Finset.range n, blockNum (b j) * r ^ (n - j)) * r := by
      rw [Finset.sum_mul]
      refine Finset.sum_congr rfl fun j hj => ?_
      rw [Nat.succ_sub (Finset.mem_range.1 hj).le, pow_succ, mul_assoc]
    rw [List.range_succ, List.map_append, List.foldl_append, ih, Finset.sum_range_succ, hshift,
      Nat.add_sub_cancel_left, pow_one, ← Nat.add_mul]
    exact ((Nat.mod_modEq _ _).add_right _).mul_right _

@[simp] theorem polyAcc_nil (r : Nat) : polyAcc r [] = 0 := rfl

/-- Under a zero multiplier the accumulator stays zero (42_poly1305 R125 (b)). -/
@[simp] theorem polyAcc_zero (msg : List Byte) : polyAcc 0 msg = 0 :=
  List.foldl_fixed' (fun _ => Nat.zero_mod p1305) _

/-- `S` is the number of the second half of the one-time key: sixteen bytes fit in its 128 bits (42_poly1305 R121). -/
theorem toLe_polyS (k1 : Octets 32) : toLe (polyS k1).toNat 16 = k1.toList.drop 16 := by
  have hlen : (k1.toList.drop 16).length = 16 := by simp
  have hlt : leNum (k1.toList.drop 16) < 2 ^ 128 := by simpa only [hlen] using leNum_lt (k1.toList.drop 16)
  rw [polyS, BitVec.toNat_ofNat, Nat.mod_eq_of_lt hlt]
  simpa only [hlen] using toLe_leNum (k1.toList.drop 16)

/-- With nothing accumulated the finalization leaves `S` (42_poly1305 R124, R125). -/
theorem toList_poly1305_of_polyAcc_eq_zero {k1 : Octets 32} {msg : List Byte}
    (h : polyAcc (polyR k1).toNat msg = 0) : (poly1305 k1 msg).toList = k1.toList.drop 16 := by
  rw [poly1305, h, Nat.zero_add, Nat.mod_eq_of_lt (polyS k1).isLt, toList_octets (length_toLe _ _).ge,
    List.take_of_length_le (length_toLe _ _).le, toLe_polyS]

/-- The loop of the comparator takes one step per byte position (42_poly1305 R131). -/
theorem steps_foldl_ctStep (l : List (Byte × Byte)) (run : CtRun) :
    (l.foldl ctStep run).steps = run.steps + l.length := by
  induction l generalizing run with
  | nil => rfl
  | cons p l ih => rw [List.foldl_cons, ih, ctStep, List.length_cons, Nat.add_right_comm, Nat.add_assoc]

/-- `DIFF` is zero after the loop exactly when it was zero before and no position differs: a bit once set stays
(42_poly1305 R130). -/
theorem diff_foldl_ctStep_eq_zero_iff (l : List (Byte × Byte)) (run : CtRun) :
    (l.foldl ctStep run).diff = 0 ↔ run.diff = 0 ∧ ∀ p ∈ l, p.1 = p.2 := by
  induction l generalizing run with
  | nil => simp
  | cons p l ih =>
    have hp : (ctStep run p).diff = 0 ↔ run.diff = 0 ∧ p.1 = p.2 :=
      BitVec.or_eq_zero_iff.trans (and_congr_right' BitVec.xor_eq_zero_iff)
    rw [List.foldl_cons, ih, hp, List.forall_mem_cons, and_assoc]

/-- The comparator accepts only equal arguments (42_poly1305 R130). -/
theorem eq_of_ctEq {a b : Octets 16} (h : ctEq a b = true) : a = b := by
  obtain ⟨-, hall⟩ := (diff_foldl_ctStep_eq_zero_iff (a.toList.zip b.toList) ⟨0, 0⟩).1 (beq_iff_eq.1 h)
  refine Vector.ext fun i hi => ?_
  have hz : i < (a.toList.zip b.toList).length := by simpa using hi
  simpa using hall _ (List.getElem_mem hz)

end Sys2Proof.Machine
end

section
/-! The statements on the MAC engine and the comparator. -/

open Sys2Proof Sys2Proof.Machine

/-- Settles O42: the accumulation is Horner's rule over the blocks. -/
theorem accumulatorIsThePolynomial : Obligations.AccumulatorIsThePolynomial :=
  fun r msg => foldl_polyStep_range r (fun j => (msg.drop (16 * j)).take 16) ((msg.length + 15) / 16)

/-- Settles O43: in both cases the accumulator is zero. -/
theorem tagWithoutMultiplier : Obligations.TagWithoutMultiplier := by
  refine fun k1 => ⟨toList_poly1305_of_polyAcc_eq_zero (polyAcc_nil _), fun hr msg => ?_⟩
  exact toList_poly1305_of_polyAcc_eq_zero (by simp [hr])

/-- Settles O45: `DIFF` collects the differences, one step per position. -/
theorem comparatorIsEqualityInSixteenSteps : Obligations.ComparatorIsEqualityInSixteenSteps := by
  refine fun a b => ⟨⟨eq_of_ctEq, fun h => h ▸ ctEq_self a⟩, ?_⟩
  rw [ctRun, steps_foldl_ctStep]
  simp

/-- Settles O41: the mask is below `2^124` and clears the 22 bits. -/
theorem clampedMultiplierBits : Obligations.ClampedMultiplierBits := by
  have hmask : clampMask.toNat < 2 ^ 124 := by decide
  have hbits : ∀ i ∈ [28, 29, 30, 31, 60, 61, 62, 63, 92, 93, 94, 95, 124, 125, 126, 127, 32, 33, 64, 65, 96, 97],
      clampMask.getLsbD i = false := by decide
  exact fun k1 => ⟨(polyR_toNat_le k1).trans_lt hmask, fun i hi => polyR_getLsbD_of_clampMask (hbits i hi)⟩

end

section
/-! The AEAD Engine: `open` on a matching and on another tag, and the two commands with and without a valid key. -/

namespace Sys2Proof.Machine

section Open
variable {key : Octets 32} {nonce : Octets 24} {ct aad : List Byte} {tag : Octets 16}

/-- On the tag of the ciphertext `open` deciphers (43_aead R142). -/
theorem aeadOpen_of_tag_eq (h : tag = aeadTag (oneTimeKey key nonce) aad ct) :
    aeadOpen key nonce ct tag aad = some (xchachaXor key nonce 1 ct) := by
  rw [aeadOpen, h, if_pos (ctEq_self _)]

/-- On any other tag `open` fails: the comparator accepts only equal tags (43_aead R142). -/
theorem aeadOpen_of_tag_ne (h : tag ≠ aeadTag (oneTimeKey key nonce) aad ct) :
    aeadOpen key nonce ct tag aad = none :=
  if_neg (mt eq_of_ctEq h)

end Open

/-- Every code but `KeyDerivationError` leaves `FATAL` (10_state R32). -/
theorem Status.run_of_ne (st : Status) {e : ErrCode} (he : e ≠ .keyDerivation) :
    st.run e = { err := e, keyValid := st.keyValid, done := true, busy := false, fatal := st.fatal } := by
  simp [Status.run_eq_complete, Status.complete, he]

section Commands
variable {s : State}

theorem execSeal_of_keyValid (hv : s.status.keyValid = true) : exec .cmdSeal s = .next (sealAccepted s) :=
  congrArg Host.Outcome.next (if_pos hv)

theorem execSeal_of_noKey (hv : s.status.keyValid = false) : exec .cmdSeal s = .next s.refuse :=
  congrArg Host.Outcome.next (if_neg (Bool.eq_false_iff.1 hv))

theorem execOpen_of_keyValid (hv : s.status.keyValid = true) : exec .cmdOpen s = .next (openAccepted s) :=
  congrArg Host.Outcome.next (if_pos hv)

theorem execOpen_of_noKey (hv : s.status.keyValid = false) : exec .cmdOpen s = .next s.refuse :=
  congrArg Host.Outcome.next (if_neg (Bool.eq_false_iff.1 hv))

/-- The refusal of a command for want of a key (60_exceptions R195). -/
theorem State.refuse_of_noKey (hv : s.status.keyValid = false) : s.refuse = { s with
    status := { err := .command, keyValid := false, done := true, busy := false, fatal := s.status.fatal } } := by
  rw [State.refuse, Status.run_of_ne _ (by decide), hv]

end Commands
end Sys2Proof.Machine
end

section
/-! The statements on the AEAD Engine. -/

open Sys2Proof Sys2Proof.Machine

/-- Settles O10, one ending of `OPEN` after the other, the status being that of the completion with its code. -/
theorem openCommand : Obligations.OpenCommand := by
  refine fun s => ⟨fun hv ht => ?_, fun hv ht => ?_, fun hv => ?_⟩
  · rw [execOpen_of_keyValid hv, openAccepted_of_some (aeadOpen_of_tag_eq ht), State.finish, Status.run_ok]
    rfl
  · rw [execOpen_of_keyValid hv, openAccepted_of_none (aeadOpen_of_tag_ne ht), State.raise, State.finish,
      Status.run_of_ne _ (by decide)]
    rfl
  · rw [execOpen_of_noKey hv, State.refuse_of_noKey hv]

/-- Settles O49: the tag is that of the ciphertext, and the cipher is its own inverse. -/
theorem openOfSealIsThePlaintext : Obligations.OpenOfSealIsThePlaintext :=
  fun _ _ _ _ => aeadOpen_of_aeadSeal rfl

/-- Settles O53: `SEAL` leaves nonce and AAD, so that with the key loaded again `OPEN` opens what was sealed. -/
theorem sealThenOpenRestoresThePlaintext : Obligations.SealThenOpenRestoresThePlaintext := by
  intro s t junk hv hx
  cases exec_ends (Accepts.hasStep (i := .cmdSeal) hv) hx with
  | sealRefused hn => exact absurd (hv.symm.trans hn) (by decide)
  | sealed _ hr =>
    refine ⟨_, execOpen_of_keyValid rfl, ?_⟩
    rw [openAccepted_of_some (aeadOpen_of_aeadSeal hr)]
    exact ⟨rfl, rfl, rfl⟩

/-- Settles O9: the status is that of the completion with `OK`, or that of the refusal. -/
theorem sealCommand : Obligations.SealCommand := by
  refine fun s => ⟨fun hv => ?_, fun hv => ?_⟩
  · rw [execSeal_of_keyValid hv, sealAccepted_of_eq rfl, State.finish, Status.run_ok]
    rfl
  · rw [execSeal_of_noKey hv, State.refuse_of_noKey hv]

/-- Settles O48: the first `SEAL` has wiped the key and is done, so that the refusal of the second changes
`ERR` alone. -/
theorem secondSealIsRefused : Obligations.SecondSealIsRefused := by
  intro s t hv hx
  have he := exec_ends (Accepts.hasStep (i := .cmdSeal) hv) hx
  obtain ⟨-, hkey⟩ := he.key_wiped (by decide) hv
  obtain ⟨hdone, hbusy, -⟩ := he.completion
  rw [execSeal_of_noKey hkey, State.refuse_of_idle hbusy, ← hdone]

/-- Settles O50: the tag that `seal` made is the tag of its ciphertext. -/
theorem changedTagNeverOpens : Obligations.ChangedTagNeverOpens :=
  fun _ _ _ _ _ ht => aeadOpen_of_tag_ne ht

/-- Settles O51: `open` compares the tag of `seal` with the tag of the changed input. -/
theorem changedCiphertextNeedsATagCollision : Obligations.ChangedCiphertextNeedsATagCollision :=
  fun _ _ _ _ _ _ ht => aeadOpen_of_tag_ne ht

end

section
/-! The envelope codec the other way round: an envelope of 56 bytes or more is what `encode` makes of its four fields,
and a shorter one has none. -/

namespace Sys2Proof.Machine

theorem decodeEnvelope_of_short {e : List Byte} (h : e.length < 56) : decodeEnvelope e = none :=
  if_pos h

/-- A field at the front of a sequence and the rest are the sequence. -/
theorem toList_octets_append_drop {n : Nat} {l : List Byte} (h : n ≤ l.length) :
    (octets n l).toList ++ l.drop n = l := by
  rw [toList_octets h, List.take_append_drop]

/-- Every sequence of 56 bytes or more is an envelope: `SALT` and `NONCE` are taken off its front, and the last 16
bytes of what is left are `TAG` (30_encoding R76). -/
theorem exists_encodeEnvelope_eq {e : List Byte} (h : 56 ≤ e.length) :
    ∃ f : EnvelopeFields, encodeEnvelope f.salt f.nonce f.ct f.tag = e := by
  refine ⟨⟨octets 16 e, octets 24 (e.drop 16), (e.drop 40).take (e.length - 56),
    octets 16 ((e.drop 40).drop (e.length - 56))⟩, ?_⟩
  have hsalt : (octets 16 e).toList ++ e.drop 16 = e := toList_octets_append_drop (by omega)
  have hnonce : (octets 24 (e.drop 16)).toList ++ e.drop 40 = e.drop 16 := by
    rw [← List.drop_drop (i := 24) (j := 16)]
    exact toList_octets_append_drop (by rw [List.length_drop]; omega)
  have htag : (octets 16 ((e.drop 40).drop (e.length - 56))).toList = (e.drop 40).drop (e.length - 56) := by
    have hlen : ((e.drop 40).drop (e.length - 56)).length = 16 := by
      simp only [List.length_drop]
      omega
    rw [toList_octets hlen.ge, List.take_of_length_le hlen.le]
  rw [encodeEnvelope, htag, List.append_assoc, List.take_append_drop, List.append_assoc, hnonce, hsalt]

/-- `encode` gives back the envelope that `decode` took apart (44_envelope R165). -/
theorem decodeEnvelope_of_long {e : List Byte} (h : 56 ≤ e.length) :
    ∃ f, decodeEnvelope e = some f ∧ encodeEnvelope f.salt f.nonce f.ct f.tag = e := by
  obtain ⟨f, rfl⟩ := exists_encodeEnvelope_eq h
  exact ⟨f, decodeEnvelope_encodeEnvelope _ _ _ _, rfl⟩

end Sys2Proof.Machine
end

section
/-! The statements on the envelope. -/

open Sys2Proof Sys2Proof.Machine

/-- Settles O12: `decode` answers the four fields, or none, and the status is that of the completion with the code. -/
theorem decodeCommand : Obligations.DecodeCommand := by
  refine fun s => ⟨fun salt nonce ct tag henv => ?_, fun hlen => ?_, fun hlen => ?_⟩
  · have hd := (congrArg decodeEnvelope henv).trans (decodeEnvelope_encodeEnvelope salt nonce ct tag)
    refine congrArg Host.Outcome.next ((decodeAccepted_of_some hd).trans ?_)
    rw [State.finish, Status.run_ok]
    rfl
  · refine congrArg Host.Outcome.next ((decodeAccepted_of_none (decodeEnvelope_of_short hlen)).trans ?_)
    rw [State.raise, State.finish, Status.run_of_ne _ (by decide)]
    rfl
  · obtain ⟨f, he⟩ := exists_encodeEnvelope_eq hlen
    exact ⟨f.salt, f.nonce, f.ct, f.tag, he.symm⟩

/-- Settles O46: both ways round, and `decode` of a short envelope. -/
theorem envelopeCodecIsABijection : Obligations.EnvelopeCodecIsABijection :=
  ⟨decodeEnvelope_encodeEnvelope, fun _ => decodeEnvelope_of_long, fun _ => decodeEnvelope_of_short⟩

/-- Settles O11: the status is that of the completion with `OK`. -/
theorem encodeCommand : Obligations.EncodeCommand := by
  refine fun s => congrArg Host.Outcome.next ?_
  rw [encodeAccepted, State.finish, Status.run_ok]
  rfl

end

section
/-! The endings the other way round: each is what its command answers, so that a command's next state is found by naming
its ending; and a command leaves in its operands what the operands it read and its draw decide. -/

namespace Sys2Proof.Machine

section Endings
variable {kdf : Kdf} {s : State} {f : EnvelopeFields} {k : Octets 32}

theorem encryptWith_of_some {ct : List Byte} {tag : Octets 16} (hd : 40 ≤ s.rng.length)
    (hk : kdf s.mem.pw s.takeDraw.salt = some k) (hr : aeadSeal k s.takeDraw.nonce s.mem.pt [] = (ct, tag)) :
    encryptWith kdf s = (((s.takeDraw.setBuf .ct ct).setTag tag).setBuf .env
      (encodeEnvelope s.takeDraw.salt s.takeDraw.nonce ct tag)).wipeKey.finish .ok := by
  cases hr
  rw [encryptWith, if_neg (Nat.not_lt.2 hd), encryptDrawn_eq, hk]
  rfl

theorem encryptWith_of_none (hd : 40 ≤ s.rng.length) (hk : kdf s.mem.pw s.takeDraw.salt = none) :
    encryptWith kdf s = (s.takeDraw.clearFields.wipeBuf .env).wipeKey.raise .keyDerivation := by
  rw [encryptWith, if_neg (Nat.not_lt.2 hd), encryptDrawn_eq, hk]
  rfl

theorem decryptWith_of_malformed (hd : decodeEnvelope s.mem.env = none) :
    decryptWith kdf s = ((s.wipeBuf .aad).clearOutputs.wipeBuf .pw).wipeKey.raise .malformedEnvelope := by
  simp only [decryptWith, hd]

theorem decryptWith_of_noKey (hd : decodeEnvelope s.mem.env = some f) (hk : kdf s.mem.pw f.salt = none) :
    decryptWith kdf s = (s.takeFields f).clearOutputs.wipeKey.raise .keyDerivation := by
  simp only [decryptWith, hd, hk]
  rfl

theorem decryptWith_of_openFailed (hd : decodeEnvelope s.mem.env = some f) (hk : kdf s.mem.pw f.salt = some k)
    (ho : aeadOpen k f.nonce f.ct f.tag [] = none) :
    decryptWith kdf s = (s.takeFields f).wipeKey.clearOutputs.raise .authentication := by
  simp [decryptWith, hd, hk, decryptTail, ho, State.takeFields]

/-- Every ending is what its command answers: the converse of `exec_ends`. -/
theorem CommandEnds.exec_eq {i : Instr} {t : State} (h : CommandEnds Config.kdf i s t) : exec i s = .next t := by
  cases h with
  | derived hk => exact congrArg _ (deriveWith_of_some hk)
  | deriveFailed hk => exact congrArg _ (deriveWith_of_none hk)
  | sealed hv hr => exact (execSeal_of_keyValid hv).trans (congrArg _ (sealAccepted_of_eq hr))
  | sealRefused hv => exact execSeal_of_noKey hv
  | opened hv ho => exact (execOpen_of_keyValid hv).trans (congrArg _ (openAccepted_of_some ho))
  | openFailed hv ho => exact (execOpen_of_keyValid hv).trans (congrArg _ (openAccepted_of_none ho))
  | openRefused hv => exact execOpen_of_noKey hv
  | encoded => rfl
  | decoded hd => exact congrArg _ (decodeAccepted_of_some hd)
  | decodeFailed hd => exact congrArg _ (decodeAccepted_of_none hd)
  | encrypted hd hk hr => exact congrArg _ (encryptWith_of_some hd hk hr)
  | encryptFailed hd hk => exact congrArg _ (encryptWith_of_none hd hk)
  | decryptMalformed hd => exact congrArg _ (decryptWith_of_malformed hd)
  | decryptNoKey hd hk => exact congrArg _ (decryptWith_of_noKey hd hk)
  | decryptFailed hd hk ho => exact congrArg _ (decryptWith_of_openFailed hd hk ho)
  | decrypted hd hk ho => exact congrArg _ (decryptWith_of_open hd hk ho)

/-- The tag is the last 16 bytes of the envelope: another one in their place gives the envelope of that tag
(30_encoding R76). -/
theorem encodeEnvelope_replaceTag (salt : Octets 16) (nonce : Octets 24) (ct : List Byte) (tag tag' : Octets 16) :
    (encodeEnvelope salt nonce ct tag).take ((encodeEnvelope salt nonce ct tag).length - 16) ++ tag'.toList =
      encodeEnvelope salt nonce ct tag' := by
  have hlen : (encodeEnvelope salt nonce ct tag).length - 16 = (salt.toList ++ nonce.toList ++ ct).length := by
    simp [encodeEnvelope]
    omega
  rw [hlen, encodeEnvelope, List.take_left, encodeEnvelope]

/-- With the password of an `ENCRYPT` that ended with `OK`, and its envelope under another tag, `DECRYPT` derives the
same key and finds that the tag does not verify (45_public R176). -/
theorem decryptWith_of_changedTag {t u : State} {tag : Octets 16} (he : CommandEnds kdf .cmdEncrypt s t)
    (hok : t.status.err = .ok) (htag : tag ≠ t.tag) (hpw : u.mem.pw = s.mem.pw)
    (henv : u.mem.env = t.mem.env.take (t.mem.env.length - 16) ++ tag.toList) :
    (decryptWith kdf u).status.err = .authentication ∧ (decryptWith kdf u).mem.pt = [] := by
  cases he with
  | encryptFailed => cases hok
  | encrypted _ hk hr =>
    have hd := (congrArg decodeEnvelope (henv.trans (encodeEnvelope_replaceTag _ _ _ _ tag))).trans
      (decodeEnvelope_encodeEnvelope _ _ _ _)
    rw [← hpw] at hk
    cases hr
    rw [decryptWith_of_openFailed hd hk (aeadOpen_of_tag_ne htag)]
    exact ⟨rfl, rfl⟩

end Endings

/-! What two states that agree on places have in common, and the places in which a command has its key. -/

section Agreement
variable {s t : State} {l : Loc} {ls : List Loc}

section Places
variable (h : AgreeOn ls s t)
include h

theorem AgreeOn.key (hl : .key ∈ ls := by decide) : s.key = t.key := Vector.toList_inj.1 (h _ hl)
theorem AgreeOn.salt (hl : .salt ∈ ls := by decide) : s.salt = t.salt := Vector.toList_inj.1 (h _ hl)
theorem AgreeOn.nonce (hl : .nonce ∈ ls := by decide) : s.nonce = t.nonce := Vector.toList_inj.1 (h _ hl)
theorem AgreeOn.tag (hl : .tag ∈ ls := by decide) : s.tag = t.tag := Vector.toList_inj.1 (h _ hl)
theorem AgreeOn.pw (hl : .buf .pw ∈ ls := by decide) : s.mem.pw = t.mem.pw := h _ hl
theorem AgreeOn.aad (hl : .buf .aad ∈ ls := by decide) : s.mem.aad = t.mem.aad := h _ hl
theorem AgreeOn.pt (hl : .buf .pt ∈ ls := by decide) : s.mem.pt = t.mem.pt := h _ hl
theorem AgreeOn.ct (hl : .buf .ct ∈ ls := by decide) : s.mem.ct = t.mem.ct := h _ hl
theorem AgreeOn.env (hl : .buf .env ∈ ls := by decide) : s.mem.env = t.mem.env := h _ hl

end Places

@[simp] theorem agreeOn_nil : AgreeOn [] s t := nofun
@[simp] theorem agreeOn_cons : AgreeOn (l :: ls) s t ↔ s.loc l = t.loc l ∧ AgreeOn ls s t := List.forall_mem_cons

@[simp] theorem State.loc_key : s.loc .key = s.key.toList := rfl
@[simp] theorem State.loc_salt : s.loc .salt = s.salt.toList := rfl
@[simp] theorem State.loc_nonce : s.loc .nonce = s.nonce.toList := rfl
@[simp] theorem State.loc_tag : s.loc .tag = s.tag.toList := rfl
@[simp] theorem State.loc_buf (b : Buf) : s.loc (.buf b) = s.mem.get b := rfl

@[simp] theorem State.takeDraw_mem : s.takeDraw.mem = { s.mem with aad := [], pw := [] } := rfl
@[simp] theorem State.takeFields_salt (f : EnvelopeFields) : (s.takeFields f).salt = f.salt := rfl
@[simp] theorem State.takeFields_nonce (f : EnvelopeFields) : (s.takeFields f).nonce = f.nonce := rfl
@[simp] theorem State.takeFields_tag (f : EnvelopeFields) : (s.takeFields f).tag = f.tag := rfl
@[simp] theorem State.takeFields_mem (f : EnvelopeFields) :
    (s.takeFields f).mem = { s.mem with aad := [], ct := f.ct, pw := [] } := rfl

theorem octets_take {n m : Nat} (h : n ≤ m) (l : List Byte) : octets n (l.take m) = octets n l := by
  ext i hi
  simp [octets, List.getElem?_take_of_lt (Nat.lt_of_lt_of_le hi h)]

/-- The salt and the nonce of an `ENCRYPT` are its draw (45_public R171). -/
theorem State.takeDraw_eq_of_take (h : s.rng.take 40 = t.rng.take 40) :
    s.takeDraw.salt = t.takeDraw.salt ∧ s.takeDraw.nonce = t.takeDraw.nonce := by
  constructor
  · change octets 16 s.rng = octets 16 t.rng
    rw [← octets_take (m := 40) (by decide), h, octets_take (by decide)]
  · change octets 24 (s.rng.drop 16) = octets 24 (t.rng.drop 16)
    rw [← octets_take (m := 40 - 16) (by decide), ← List.drop_take, h, List.drop_take, octets_take (by decide)]

end Agreement

/-- The ending of an accepted command is decided by the operands read and the draw: a second state that agrees on them
has the same ending, which leaves the same operands and code (45_public R178). -/
theorem CommandEnds.exists_agreeing {kdf : Kdf} {i : Instr} {s₁ s₂ t₁ : State} (h : CommandEnds kdf i s₁ t₁)
    (ha₁ : Accepts i s₁) (ha₂ : Accepts i s₂) (hr : AgreeOn (readsOf i) s₁ s₂)
    (hd : s₁.rng.take (drawsOf i) = s₂.rng.take (drawsOf i)) :
    ∃ t₂, CommandEnds kdf i s₂ t₂ ∧ AgreeOn (writesOf i ++ wipesOf i) t₁ t₂ ∧ t₁.status.err = t₂.status.err := by
  cases h with
  | sealRefused hv | openRefused hv => exact absurd (ha₁.symm.trans hv) (by decide)
  | derived hk =>
    rw [hr.pw, hr.salt] at hk
    exact ⟨_, .derived hk, by simp [writesOf, wipesOf], rfl⟩
  | deriveFailed hk =>
    rw [hr.pw, hr.salt] at hk
    exact ⟨_, .deriveFailed hk, by simp [writesOf, wipesOf], rfl⟩
  | sealed _ hs =>
    rw [hr.key, hr.nonce, hr.pt, hr.aad] at hs
    exact ⟨_, .sealed ha₂ hs, by simp [writesOf, wipesOf], rfl⟩
  | opened _ ho =>
    rw [hr.key, hr.nonce, hr.ct, hr.tag, hr.aad] at ho
    exact ⟨_, .opened ha₂ ho, by simp [writesOf, wipesOf], rfl⟩
  | openFailed _ ho =>
    rw [hr.key, hr.nonce, hr.ct, hr.tag, hr.aad] at ho
    exact ⟨_, .openFailed ha₂ ho, by simp [writesOf, wipesOf], rfl⟩
  | encoded =>
    rw [hr.salt, hr.nonce, hr.ct, hr.tag]
    exact ⟨_, .encoded, by simp [writesOf, wipesOf], rfl⟩
  | decoded he =>
    rw [hr.env] at he
    exact ⟨_, .decoded he, by simp [writesOf, wipesOf], rfl⟩
  | decodeFailed he =>
    rw [hr.env] at he
    exact ⟨_, .decodeFailed he, by simp [writesOf, wipesOf], rfl⟩
  | encrypted _ hk hs =>
    obtain ⟨hsalt, hnonce⟩ := State.takeDraw_eq_of_take hd
    rw [hr.pw, hsalt] at hk
    rw [hr.pt, hnonce] at hs
    exact ⟨_, .encrypted ha₂ hk hs, by simp [writesOf, wipesOf, hsalt, hnonce], rfl⟩
  | encryptFailed _ hk =>
    obtain ⟨hsalt, -⟩ := State.takeDraw_eq_of_take hd
    rw [hr.pw, hsalt] at hk
    exact ⟨_, .encryptFailed ha₂ hk, by simp [writesOf, wipesOf], rfl⟩
  | decryptMalformed he =>
    rw [hr.env] at he
    exact ⟨_, .decryptMalformed he, by simp [writesOf, wipesOf], rfl⟩
  | decryptNoKey he hk =>
    rw [hr.env] at he
    rw [hr.pw] at hk
    exact ⟨_, .decryptNoKey he hk, by simp [writesOf, wipesOf], rfl⟩
  | decryptFailed he hk ho =>
    rw [hr.env] at he
    rw [hr.pw] at hk
    exact ⟨_, .decryptFailed he hk ho, by simp [writesOf, wipesOf], rfl⟩
  | decrypted he hk ho =>
    rw [hr.env] at he
    rw [hr.pw] at hk
    exact ⟨_, .decrypted he hk ho, by simp [writesOf, wipesOf], rfl⟩

end Sys2Proof.Machine
end

section
/-! The statements on the public surface. -/

open Sys2Proof Sys2Proof.Machine

/-- Settles O13, for each answer of `KDF`: the ending of `ENCRYPT` in the state after its draw. -/
theorem encryptCommand : Obligations.EncryptCommand := by
  intro s salt nonce rest hr
  have hd : 40 ≤ s.rng.length := by simp only [hr, List.length_append, Vector.length_toList]; omega
  have ht := State.takeDraw_of_rng hr
  cases hk : Config.kdf s.mem.pw salt with
  | some k =>
    rw [CommandEnds.exec_eq (.encrypted hd (by rwa [ht]) rfl), ht, State.finish, Status.run_ok]
    rfl
  | none =>
    rw [CommandEnds.exec_eq (.encryptFailed hd (by rwa [ht])), ht, State.raise, State.finish,
      Status.run_keyDerivation]
    rfl

/-- Settles O16, one ending of `DECRYPT` after the other, the status being that of the completion with its code. -/
theorem decryptCommand : Obligations.DecryptCommand := by
  refine fun s => ⟨fun hlen => ?_, fun salt nonce ct tag henv => ?_⟩
  · rw [CommandEnds.exec_eq (.decryptMalformed (decodeEnvelope_of_short hlen)), State.raise, State.finish,
      Status.run_of_ne _ (by decide)]
    rfl
  · have hd := (congrArg decodeEnvelope henv).trans (decodeEnvelope_encodeEnvelope salt nonce ct tag)
    cases hk : Config.kdf s.mem.pw salt with
    | none =>
      rw [CommandEnds.exec_eq (.decryptNoKey hd hk), State.raise, State.finish, Status.run_keyDerivation]
      rfl
    | some k =>
      by_cases ht : tag = aeadTag (oneTimeKey k nonce) [] ct
      · rw [CommandEnds.exec_eq (.decrypted hd hk (aeadOpen_of_tag_eq ht)), State.finish, Status.run_ok]
        exact congrArg _ (if_pos ht).symm
      · rw [CommandEnds.exec_eq (.decryptFailed hd hk (aeadOpen_of_tag_ne ht)), State.raise, State.finish,
          Status.run_of_ne _ (by decide)]
        exact congrArg _ (if_neg ht).symm

/-- Settles O20: the second run has the ending of the first, and its next state is the one that ending names. -/
theorem commandsDependOnlyOnTheirOperands : Obligations.CommandsDependOnlyOnTheirOperands := by
  intro i s₁ s₂ t₁ t₂ ha₁ ha₂ hr hd hx₁ hx₂
  obtain ⟨t, he, hagree⟩ := (exec_ends ha₁.hasStep hx₁).exists_agreeing ha₁ ha₂ hr hd
  cases he.exec_eq.symm.trans hx₂
  exact hagree

/-- Settles O54: the password is loaded again, and neither load reaches the envelope. -/
theorem encryptThenDecryptRestoresThePlaintext : Obligations.EncryptThenDecryptRestoresThePlaintext :=
  fun kdf _ _ hlen hok => decryptWith_of_encrypted (encryptWith_ends kdf hlen) hok rfl rfl

/-- Settles O56: the same key is derived, under which `open` fails on any tag but the one `ENCRYPT` made. -/
theorem changedTagRegionNeverDecrypts : Obligations.ChangedTagRegionNeverDecrypts := by
  rintro kdf s tag hlen hok htag _ rfl
  exact decryptWith_of_changedTag (encryptWith_ends kdf hlen) hok htag rfl rfl

end

section
/-! The codes of the endings, and the one state in which a `DECRYPT` whose tag does not verify ends. -/

namespace Sys2Proof.Machine

variable {kdf : Kdf} {i : Instr} {s t : State}

/-- The code of every ending is in the command's row of the error table (60_exceptions R191): `ok` heads each row. -/
theorem CommandEnds.err_mem (h : CommandEnds kdf i s t) : t.status.err ∈ errorsOf i := by
  cases h with
  | derived | sealed | opened | encoded | decoded | encrypted | decrypted => exact List.mem_cons_self
  | deriveFailed | sealRefused | openFailed | decodeFailed | encryptFailed | decryptMalformed =>
    exact .tail _ List.mem_cons_self
  | openRefused | decryptFailed => exact .tail _ (.tail _ List.mem_cons_self)
  | decryptNoKey => exact .tail _ (.tail _ (.tail _ List.mem_cons_self))

/-- Error entry clears all that an authentication failure of `DECRYPT` loaded from the envelope: the end state is
written without it (60_exceptions R193, R197). -/
theorem CommandEnds.decrypt_authentication (h : CommandEnds kdf .cmdDecrypt s t)
    (herr : t.status.err = .authentication) :
    t = ((s.wipeBuf .aad).wipeBuf .pw).wipeKey.clearOutputs.raise .authentication := by
  cases h with
  | decryptMalformed | decryptNoKey | decrypted => cases herr
  | decryptFailed => rfl

end Sys2Proof.Machine
end

section
/-! The statements on errors. -/

open Sys2Proof Sys2Proof.Machine

/-- Settles O19: every ending of a command has a code of its row. -/
theorem commandsEndWithTheirOwnCodes : Obligations.CommandsEndWithTheirOwnCodes :=
  fun _ _ _ hs hx => (exec_ends hs hx).err_mem

/-- Settles O25: both end in the state of an authentication failure, in which the password is wiped. -/
theorem authenticationFailuresEndAlike : Obligations.AuthenticationFailuresEndAlike := by
  intro kdf s pw env h₁ h₂
  rw [(decryptWith_ends kdf s).decrypt_authentication h₁, (decryptWith_ends kdf _).decrypt_authentication h₂]
  rfl

end

section
/-! Two texts under one keystream. -/

namespace Sys2Proof.Machine

/-- Two texts against one keystream that reaches to the end of the first: the keystream cancels. -/
theorem xorBytes_xorBytes_xorBytes {x y k : List Byte} (h : x.length ≤ k.length) :
    xorBytes (xorBytes x k) (xorBytes y k) = xorBytes x y := by
  induction x generalizing y k with
  | nil => rfl
  | cons a x ih =>
    cases k with
    | nil => cases h
    | cons c k =>
      cases y with
      | nil => rfl
      | cons b y =>
        have hbyte : (a ^^^ c) ^^^ (b ^^^ c) = a ^^^ b := by
          rw [BitVec.xor_comm b c, BitVec.xor_assoc, ← BitVec.xor_assoc c c b, BitVec.xor_self, BitVec.zero_xor]
        exact congrArg₂ List.cons hbyte (ih (Nat.le_of_succ_le_succ h))

/-- The keystream depends on the length of the text alone, so texts of one length meet the same one
(41_chacha R112 (d)). -/
theorem xorBytes_chachaXor_chachaXor (k : Octets 32) (c0 : Word) (n : Octets 12) {m₁ m₂ : List Byte}
    (h : m₁.length = m₂.length) :
    xorBytes (chachaXor k c0 n m₁) (chachaXor k c0 n m₂) = xorBytes m₁ m₂ := by
  have hlen : m₁.length ≤ (keystream k c0 n ((m₁.length + 63) / 64)).length := by
    rw [length_keystream]
    omega
  rw [chachaXor, chachaXor, ← h, xorBytes_xorBytes_xorBytes hlen]

end Sys2Proof.Machine
end

section
/-! The statement on nonce reuse. -/

open Sys2Proof Sys2Proof.Machine

/-- Settles O52: one key and nonce give one inner key and inner nonce, and texts of one length the same keystream. -/
theorem nonceReuseExposesThePlaintexts : Obligations.NonceReuseExposesThePlaintexts :=
  fun _ _ _ _ _ h => xorBytes_chachaXor_chachaXor _ _ _ h

end

section
/-! Every step answers; what a host read leaves; what a waiting `ENCRYPT` does in each of its three situations and what
it keeps until it draws; what the endings leave of working registers and plaintext. -/

namespace Sys2Proof.Machine

/-- Every arm of `exec` answers a next state (60_exceptions R201). -/
theorem exec_answers (i : Instr) (s : State) : ∃ t, exec i s = .next t := by
  cases i <;> exact ⟨_, rfl⟩

theorem step_answers (s : State) : ∃ t, step s = .next t := by
  unfold step
  cases fetch s with
  | command i t => exact exec_answers i t
  | settled t => exact ⟨t, rfl⟩

theorem step_of_no_input {s : State} (hi : s.inputs = []) : step s = .next s := by
  simp [step, fetch, hi]

/-- The run is the iterated step: no step ends it (60_exceptions R201). -/
theorem State.step_after (s : State) (n : Nat) : step (s.after n) = .next (s.after (n + 1)) := by
  obtain ⟨t, ht⟩ := step_answers (s.after n)
  rw [State.after_succ ht, ht]

/-- A host read while `BUSY = 0` leaves its answer and nothing else (10_state R43, log entry 7). -/
theorem step_of_read {s : State} {item : HostItem} {rest : List Input} (hi : s.inputs = .read item :: rest)
    (hb : s.status.busy = false) :
    step s = .next { s with inputs := rest, readData := some (idleValue { s with inputs := rest } item) } := by
  rw [step_of_accessIdle hi (by simp) hb]
  simp [accessIdle, hostRead, hb]

section Waiting
variable {s t : State} {rest before after : List Input}

/-- An issued `ENCRYPT` without its 40 bytes waits (10_state R33). -/
theorem step_of_waiting (hi : s.inputs = .writeCmd (encodeWord .cmdEncrypt) :: rest) (hb : s.status.busy = false)
    (hr : s.rng.length < 40) : step s = .next { s with inputs := rest }.awaitRandom :=
  (step_of_writeCmd hi hb ((decodeWord_eq_ok_iff _ _).2 rfl)).trans (congrArg Host.Outcome.next (if_pos hr))

/-- With neither a delivery nor a reset pending the command stays issued (60_exceptions R201, log entry 4). -/
theorem State.awaitRandom_of_host_only (h : ∀ a ∈ s.inputs, a.isOutside = false) :
    s.awaitRandom = { s with inputs := .writeCmd (encodeWord .cmdEncrypt) :: s.inputs } := by
  rw [State.awaitRandom, splitOutside_none h]

/-- The first event from outside is a delivery: its bytes come in and the command stays issued. -/
theorem State.awaitRandom_of_random {v : List Byte} (h : s.inputs = before ++ .random v :: after)
    (hbef : ∀ a ∈ before, a.isOutside = false) :
    s.awaitRandom =
      { s with rng := s.rng ++ v, inputs := .writeCmd (encodeWord .cmdEncrypt) :: (before ++ after) } := by
  rw [State.awaitRandom, h, splitOutside_append hbef rfl]

/-- The first event from outside is a reset: it is taken and the command is dropped (70_reset_and_hazards R221). -/
theorem State.awaitRandom_of_reset (h : s.inputs = before ++ .reset :: after)
    (hbef : ∀ a ∈ before, a.isOutside = false) :
    s.awaitRandom = { s with inputs := before ++ after }.resetCore := by
  rw [State.awaitRandom, h, splitOutside_append hbef rfl]

/-- A waiting `ENCRYPT` that no reset ends keeps its operands. -/
theorem Waits.mem_eq (hw : Waits s) (hs : step s = .next t) (hr : ¬ TakesReset s t) : t.mem = s.mem := by
  obtain ⟨⟨⟨rest, hi⟩, hb⟩, hl⟩ := hw
  obtain rfl := Host.Outcome.next.inj ((step_of_waiting hi hb hl).symm.trans hs)
  rcases State.awaitRandom_reset_or_stays { s with inputs := rest } with
    ⟨before, after, e, hbef, h⟩ | ⟨rng, inputs, h⟩
  · exact absurd (.inr ⟨before, after, hi.trans (congrArg _ e), hbef, hb, hl, h⟩) hr
  · rw [h]

/-- The same over any number of waiting steps. -/
theorem State.after_mem_of_waits {n m : Nat} (hnm : n ≤ m)
    (hw : ∀ k, n ≤ k → k < m → Waits (s.after k) ∧ ¬ TakesReset (s.after k) (s.after (k + 1))) :
    (s.after m).mem = (s.after n).mem := by
  induction m, hnm using Nat.le_induction with
  | base => rfl
  | succ m hnm ih =>
    obtain ⟨hwait, hreset⟩ := hw m hnm m.lt_succ_self
    exact (hwait.mem_eq (s.step_after m) hreset).trans (ih fun k hk hkm => hw k hk (hkm.trans m.lt_succ_self))

/-- A step that draws runs `ENCRYPT` to one of its endings. -/
theorem Draws.ends {v : List Byte} (hd : Draws s v) (hs : step s = .next t) :
    ∃ rest, CommandEnds Config.kdf .cmdEncrypt { s with inputs := rest } t := by
  have ⟨⟨⟨rest, hi⟩, _⟩, hlen, _⟩ := hd
  obtain rfl := Host.Outcome.next.inj ((step_of_draws hd hi).symm.trans hs)
  exact ⟨rest, encryptDrawn_ends Config.kdf hlen⟩

end Waiting

section Endings
variable {kdf : Kdf} {i : Instr} {s t : State} (h : CommandEnds kdf i s t)
include h

/-- An accepted command is not refused, and every other ending zeroes the working registers (10_state R40). -/
theorem CommandEnds.work_zero (ha : Accepts i s) : t.work = Work.zero := by
  cases h with
  | sealRefused hv | openRefused hv => exact absurd (ha.symm.trans hv) (by decide)
  | _ => rfl

/-- The endings of `OPEN` and `DECRYPT` with an error wipe `PT`, but for the refusal (43_aead R143, 45_public R173). -/
theorem CommandEnds.pt_wiped (hc : i ∈ [Instr.cmdOpen, .cmdDecrypt]) (ha : Accepts i s) (herr : t.status.err ≠ .ok) :
    t.mem.pt = [] := by
  cases h with
  | openFailed | decryptMalformed | decryptNoKey | decryptFailed => rfl
  | opened | decrypted => exact absurd rfl herr
  | openRefused hv => exact absurd (ha.symm.trans hv) (by decide)
  | _ => exact absurd hc (by decide)

end Endings

theorem Work.k1_of_zero {w : Work} (h : w = Work.zero) : w.k1.toList = List.replicate 32 0 := by
  rw [h]
  exact toList_zeros 32

end Sys2Proof.Machine
end

section
/-! The statements on totality, the idle core, the wait of `ENCRYPT`, host reads, and what a command leaves behind. -/

open Sys2Proof Sys2Proof.Machine

/-- Settles O23: every ending of an accepted command zeroes the working registers, and so does a reset. -/
theorem workingRegistersAreZeroAfterACommand : Obligations.WorkingRegistersAreZeroAfterACommand := by
  refine ⟨fun i s t ha hx => ?_, fun s t rest hi hs => ?_⟩
  · have hw := (exec_ends ha.hasStep hx).work_zero ha
    exact ⟨hw, Work.k1_of_zero hw⟩
  · rw [step_of_access hi (by simp), access_reset] at hs
    obtain rfl := Host.Outcome.next.inj hs
    exact ⟨rfl, Work.k1_of_zero rfl⟩

/-- Settles O24: the endings with an error wipe `PT`. -/
theorem failureLeavesNoPlaintext : Obligations.FailureLeavesNoPlaintext :=
  fun _ _ _ hc ha hx herr => (exec_ends ha.hasStep hx).pt_wiped hc ha herr

/-- Settles O60: the waiting steps before the draw keep the buffers, and the step that draws ends the command. -/
theorem encryptCompletesWhenTheSourceDelivers : Obligations.EncryptCompletesWhenTheSourceDelivers := by
  intro s hdel n hiss
  obtain ⟨m, hnm, ⟨v, hd⟩, hw⟩ := hdel n hiss
  obtain ⟨rest, he⟩ := hd.ends (s.step_after m)
  obtain ⟨hdone, -, -⟩ := he.completion
  obtain ⟨hrng, -, -⟩ := he.around
  refine ⟨m, v, hnm, hd, State.after_mem_of_waits hnm hw, hdone, he.err_mem, ?_⟩
  obtain ⟨-, -, rfl⟩ := hd
  rw [hrng]
  exact (List.take_append_drop 40 _).symm

/-- Settles O6: no arm of `exec` and no input is without an answer. -/
theorem everyStepAnswersANextState : Obligations.EveryStepAnswersANextState :=
  ⟨step_answers, exec_answers⟩

/-- Settles O7, by the equation of the step without an input. -/
theorem idleWithoutInput : Obligations.IdleWithoutInput :=
  fun _ hi => step_of_no_input hi

/-- Settles O14: the write of `CMD` that the step took off the list is put back. -/
theorem encryptWaitsForRandomness : Obligations.EncryptWaitsForRandomness := by
  intro s rest hi hb hr hrest
  rw [step_of_waiting hi hb hr, State.awaitRandom_of_host_only hrest]
  exact congrArg (fun l => Host.Outcome.next { s with inputs := l }) hi.symm

/-- Settles O15, for a delivery and for a reset as the first event from outside. -/
theorem waitEndsByDeliveryOrReset : Obligations.WaitEndsByDeliveryOrReset := by
  intro s before after hb hr hbef
  refine ⟨fun v hi => ?_, fun hi => ?_⟩
  · rw [step_of_waiting hi hb hr, State.awaitRandom_of_random rfl hbef]
    rfl
  · rw [step_of_waiting hi hb hr, State.awaitRandom_of_reset rfl hbef]
    rfl

/-- Settles O31, one row of the table after the other. -/
theorem hostReadsAnswerTheTable : Obligations.HostReadsAnswerTheTable := by
  intro s item rest hi hb
  refine (step_of_read hi hb).trans
    (congrArg (fun v => Host.Outcome.next { s with inputs := rest, readData := some v }) ?_)
  cases item with
  | key => exact congrArg HostValue.bytes (toList_zeros 32)
  | buf b => cases b <;> rfl
  | len b => cases b <;> rfl
  | _ => rfl

end
